-- ==== Sys2Proof/Word.lean ====
section
/-! DEFINITION. The words of the packet engine: bytes, 16-, 32- and 48-bit values, byte sequences (00_scope.md R6, R7). -/

namespace Sys2Proof

/-- A byte is 8 bits (R6). -/
abbrev Byte := BitVec 8

/-- A 16-bit value: EtherTypes, ports, lengths, checksums, counters. -/
abbrev Half := BitVec 16

/-- A 32-bit value: IPv4 addresses, transaction ids, times, status-read images. -/
abbrev Word := BitVec 32

/-- A 48-bit MAC address; the first byte on the wire is in bits 47:40 (R6). -/
abbrev Mac := BitVec 48

/-- An IPv4 address `a.b.c.d` is the 32-bit value `a<<24 | b<<16 | c<<8 | d` (R6). -/
abbrev Ip := BitVec 32

/-- A byte sequence: a frame or a message; position 0 is the first byte on the wire (R7). -/
abbrev Bytes := List Byte

end Sys2Proof
end

