-- ==== Sys2Proof/Machine/Bytes.lean ====
section
/-! DEFINITION. Byte order and byte-sequence reads (00_scope.md R7, R8; 20_memory.md R41, R46): every field is big-endian. -/

namespace Sys2Proof.Machine

/-- `F[i]` (R7). A rule reads it only after its own length check (20_memory.md R44); out of range it is 0, which no rule observes. -/
def byteAt (f : Bytes) (i : Nat) : Byte := f.getD i 0

/-- `be16(F, i)` (R7). -/
def be16 (f : Bytes) (i : Nat) : Half := byteAt f i ++ byteAt f (i + 1)

/-- `be32(F, i)` (R7). -/
def be32 (f : Bytes) (i : Nat) : Word := be16 f i ++ be16 f (i + 2)

/-- `be48(F, i)` (R7). -/
def be48 (f : Bytes) (i : Nat) : Mac := be16 f i ++ be32 f (i + 2)

/-- `F[a..b)` (R7). -/
def slice (f : Bytes) (a b : Nat) : Bytes := (f.take b).drop a

/-- `zeros(n)` (R7). -/
def zeros (n : Nat) : Bytes := List.replicate n 0

/-- `bytes16(v)` (R7). -/
def bytes16 (v : Half) : Bytes := [v.extractLsb' 8 8, v.extractLsb' 0 8]

/-- `bytes32(v)` (R7). -/
def bytes32 (v : Word) : Bytes :=
  [v.extractLsb' 24 8, v.extractLsb' 16 8, v.extractLsb' 8 8, v.extractLsb' 0 8]

/-- `bytes48(v)` (R7). -/
def bytes48 (v : Mac) : Bytes :=
  [v.extractLsb' 40 8, v.extractLsb' 32 8, v.extractLsb' 24 8, v.extractLsb' 16 8, v.extractLsb' 8 8, v.extractLsb' 0 8]

/-- `sat_inc_N(v)`: the saturating increment of an N-bit value (R8). -/
def satInc {n : Nat} (v : BitVec n) : BitVec n := if v = BitVec.allOnes n then v else v + 1

/-- `inc_N(v)`: `(v + 1) mod 2^N` (R8). -/
def inc {n : Nat} (v : BitVec n) : BitVec n := v + 1

end Sys2Proof.Machine
end

