-- ==== Sys2Proof/Machine/Checksum.lean ====
section
/-! DEFINITION. The checksum engine (40_checksum.md R78 to R85): a pure function, without state. -/

namespace Sys2Proof.Machine

/-- One step of R78's loop: add a 16-bit word and fold the carry back (end-around carry). -/
def addWord (s w : Nat) : Nat := (s + w) % 65536 + (s + w) / 65536

/-- The running sum over a byte sequence; an odd final byte `b` counts as the word `b<<8` (R78). -/
def csumSum : Bytes → Nat → Nat
  | [], s => s
  | [b], s => addWord s (b.toNat * 256)
  | a :: b :: rest, s => csumSum rest (addWord s (a.toNat * 256 + b.toNat))

/-- `csum(S1, ..., Sk)`: the Internet checksum over the concatenation of the segments; bytes pair across segment boundaries (R78). -/
def csum (segments : List Bytes) : Half := ~~~ (BitVec.ofNat 16 (csumSum segments.flatten 0))

/-- R79: the checksum of the unit with the 2-byte field at offset `c` zeroed equals the field, compared exactly. -/
def verifies (u : Bytes) (c : Nat) : Bool :=
  csum [u.take c, [0, 0], u.drop (c + 2)] == be16 u c

/-- `u` with the 2-byte field at offset `c` replaced by `v` (`H[10..12) <- ...`, R112; `M[2..4) <- ...`, R120; `U[6..8) <- ...`, R132). -/
def putHalf (u : Bytes) (c : Nat) (v : Half) : Bytes := u.take c ++ bytes16 v ++ u.drop (c + 2)

/-- Checksum insertion of R83 and R84: the unit is built with a zero field at `c`, and the field becomes `csum` of it, as is. -/
def insertChecksum (u : Bytes) (c : Nat) : Bytes := putHalf u c (csum [u])

/-- `pseudo(src, dst, p, len)`: the 12-byte pseudo-header, never transmitted (R80). -/
def pseudo (src dst : Ip) (proto : Byte) (len : Half) : Bytes :=
  bytes32 src ++ bytes32 dst ++ [0, proto] ++ bytes16 len

/-- R81: a computed UDP checksum of 0x0000 is sent as 0xFFFF. -/
def udpTransmitField (c : Half) : Half := if c = 0 then 0xFFFF else c

/-- R82: the receive check of a UDP datagram `u` of `ulen` bytes from `src` to `dst`; a field of 0x0000 means "no checksum sent". -/
def udpVerifies (src dst : Ip) (u : Bytes) : Bool :=
  let k := be16 u 6
  let c := csum [pseudo src dst 17 (BitVec.ofNat 16 u.length), u.take 6, [0, 0], u.drop 8]
  k == 0 || c == k || (c == 0 && k == 0xFFFF)

end Sys2Proof.Machine
end

