-- ==== Sys2Proof/Config.lean ====
section
/-! DEFINITION. The parameters of 00_scope.md R5 and the constants of 30_encoding.md R77. -/

namespace Sys2Proof

/-- The parameters of R5 that the spec marks OPEN: arguments of the model, plain data carried in `State`, written by no step. -/
structure Params where
  /-- `DHCP_MAX_RETRIES`: retransmissions in REQUESTING; at most 255 since `RETRY` has 8 bits (R26; log 18). -/
  maxRetries : BitVec 8
  /-- `DHCP_BACKOFF_CAP`: the largest response timeout in ticks, 1..65535. -/
  backoffCap : BitVec 16
  /-- `DEFAULT_TTL`: TTL of every IPv4 packet the engine sends, 1..255. -/
  defaultTtl : BitVec 8
  /-- `DHCP_OPT_BUF_LEN`: bytes of DHCP options examined, at least 32. -/
  optBufLen : Nat
  /-- `RX_FIFO_CAPACITY`: frames the receive FIFO holds. -/
  rxFifoCapacity : Nat
  deriving DecidableEq, Repr

/-- The ranges R5 gives the OPEN parameters. -/
def Params.wf (p : Params) : Bool :=
  decide (1 ≤ p.backoffCap.toNat) && decide (1 ≤ p.defaultTtl.toNat) && decide (32 ≤ p.optBufLen)

/-- The values every test vector uses (95_test_vectors.md section 0). `rxFifoCapacity`, which no vector needs, is DESIGN CHOICE 16 (log 6). -/
def Params.vectors : Params :=
  { maxRetries := 3, backoffCap := 64, defaultTtl := 64, optBufLen := 312, rxFifoCapacity := 16 }

namespace Config

/-- `DHCP_TIMER_LAP`: the base DHCP response timeout in ticks (R5). -/
def dhcpTimerLap : Nat := 7

/-- `MTU`: the largest IPv4 datagram in one frame (R5; general knowledge of the spec, log 17). -/
def mtu : Nat := 1500

/-- `MAX_FRAME_LEN` = 14 + `MTU` (R5). -/
def maxFrameLen : Nat := 14 + mtu

/-- The largest EtherType/length value read as an 802.3 length (R77). -/
def lengthLimit : Half := 0x05DC

/-- EtherType of ARP (R77). -/
def etherTypeArp : Half := 0x0806

/-- EtherType of IPv4 (R77). -/
def etherTypeIpv4 : Half := 0x0800

/-- ARP hardware type Ethernet (R77). -/
def arpHtypeEthernet : Half := 1

/-- IPv4 protocol numbers (R77). -/
def protoIcmp : Byte := 1

/-- IPv4 protocol number of TCP (R77). -/
def protoTcp : Byte := 6

/-- IPv4 protocol number of UDP (R77). -/
def protoUdp : Byte := 17

/-- ICMP type ECHO (R77). -/
def icmpEchoType : Byte := 8

/-- The DHCP server's UDP port (R77). -/
def dhcpServerPort : Half := 67

/-- The DHCP client's UDP port (R77). -/
def dhcpClientPort : Half := 68

/-- The DHCP magic cookie (R77). -/
def magicCookie : Word := 0x63825363

/-- The limited broadcast IPv4 address (R77). -/
def broadcastIp : Ip := 0xFFFFFFFF

/-- The broadcast MAC address (R77). -/
def broadcastMac : Mac := 0xFFFFFFFFFFFF

/-- The value the random source gives draw number `n` when the run has supplied none: a FREE VALUE, under no law
(R8 `Draw32()`, 93_implementation_defined.md I7; log 4). -/
opaque freeDraw : Nat → BitVec 32

end Config

end Sys2Proof
end

