-- ==== Sys2Proof/Machine/Regs.lean ====
section
/-! DEFINITION. The registers that an operation works on as a private copy (10_state.md R13 to R35; 60_exceptions.md R185), the
configuration inputs (00_scope.md R5), and the values RESET gives the registers (70_reset_and_hazards.md R200). -/

namespace Sys2Proof.Machine

/-- `DSTATE`, 3 bits: all eight values are states (10_state.md R17). -/
inductive DState where
  | init | selecting | requesting | bound | renewing | rebinding | initReboot | rebooting
  deriving DecidableEq, Repr

/-- The encoding of `DSTATE` (R17). -/
def DState.code : DState → BitVec 3
  | .init => 0
  | .selecting => 1
  | .requesting => 2
  | .bound => 3
  | .renewing => 4
  | .rebinding => 5
  | .initReboot => 6
  | .rebooting => 7

/-- The state a 3-bit value encodes (R17). -/
def DState.ofCode (v : BitVec 3) : DState :=
  if v = 0 then .init else if v = 1 then .selecting else if v = 2 then .requesting else if v = 3 then .bound
  else if v = 4 then .renewing else if v = 5 then .rebinding else if v = 6 then .initReboot else .rebooting

/-- `PEER_ST`, 2 bits; the reserved value 3 is written by no rule and has no constructor (10_state.md R29; log 16). -/
inductive PeerState where
  | empty | pending | resolved
  deriving DecidableEq, Repr

/-- The encoding of `PEER_ST` (R29). -/
def PeerState.code : PeerState → BitVec 2
  | .empty => 0
  | .pending => 1
  | .resolved => 2

/-- The configuration inputs of R5, sampled only by RESET (R200, R204). -/
structure Pins where
  /-- `CFG_MAC` -/
  cfgMac : Mac
  /-- `CFG_IP` -/
  cfgIp : Ip
  /-- `CFG_NETMASK` -/
  cfgNetmask : Ip
  /-- `CFG_DHCP_EN` -/
  cfgDhcpEn : Bool
  /-- `CFG_HAS_LEASE` -/
  cfgHasLease : Bool
  /-- `CFG_LEASE_SERVER` -/
  cfgLeaseServer : Ip
  deriving DecidableEq, Repr

/-- Configuration S of 95_test_vectors.md section 0: the device 02:00:00:00:00:02 at 10.0.0.2/24, static. -/
def Pins.static : Pins :=
  { cfgMac := 0x020000000002, cfgIp := 0x0A000002, cfgNetmask := 0xFFFFFF00, cfgDhcpEn := false,
    cfgHasLease := false, cfgLeaseServer := 0 }

/-- The registers of 10_state.md R13 to R35. -/
structure Regs where
  /-- `MY_MAC`, 48 bits (R13) -/
  myMac : Mac
  /-- `MY_IP`, 32 bits; 0 means no address (R14) -/
  myIp : Ip
  /-- `NETMASK`, 32 bits (R15) -/
  netmask : Ip
  /-- `DHCP_EN`, 1 bit (R16) -/
  dhcpEn : Bool
  /-- `DSTATE`, 3 bits (R17) -/
  dstate : DState
  /-- `XID`, 32 bits (R18) -/
  xid : Word
  /-- `DH_ADDR`, 32 bits (R19) -/
  dhAddr : Ip
  /-- `SERVER_ID`, 32 bits (R20) -/
  serverId : Ip
  /-- `LEASE`, 32 bits, seconds (R21) -/
  lease : Word
  /-- `T1`, 32 bits (R22) -/
  t1 : Word
  /-- `T2`, 32 bits (R23) -/
  t2 : Word
  /-- `ELAPSED`, 32 bits, saturating (R24) -/
  elapsed : Word
  /-- `TMO`, 16 bits (R25) -/
  tmo : Half
  /-- `RETRY`, 8 bits (R26) -/
  retry : BitVec 8
  /-- `PEER_IP`, 32 bits (R27) -/
  peerIp : Ip
  /-- `PEER_MAC`, 48 bits (R28) -/
  peerMac : Mac
  /-- `PEER_ST`, 2 bits (R29) -/
  peerSt : PeerState
  /-- `LAST_STATUS`, 8 bits (R30) -/
  lastStatus : BitVec 8
  /-- `RX_COUNT`, 16 bits, wrapping (R31) -/
  rxCount : Half
  /-- `DROP_COUNT`, 16 bits, wrapping (R32) -/
  dropCount : Half
  /-- `TX_COUNT`, 16 bits, wrapping (R33) -/
  txCount : Half
  /-- `TCP_SPORT`, 16 bits (R34) -/
  tcpSport : Half
  /-- `TCP_DPORT`, 16 bits (R34) -/
  tcpDport : Half
  /-- `TCP_SEQ`, 32 bits (R34) -/
  tcpSeq : Word
  /-- `TCP_ACK`, 32 bits (R34) -/
  tcpAck : Word
  /-- `TCP_OFF_FLAGS`, 16 bits (R34) -/
  tcpOffFlags : Half
  /-- `TCP_COUNT`, 16 bits, wrapping (R35) -/
  tcpCount : Half
  deriving DecidableEq, Repr

/-- A remembered lease is used only with the DHCP client on (R200: `lease`). -/
def Pins.remembersLease (c : Pins) : Bool := c.cfgDhcpEn && c.cfgHasLease

/-- The value RESET gives every register, from the sampled configuration inputs (R200). -/
def Regs.atReset (c : Pins) : Regs :=
  { myMac := c.cfgMac
    myIp := if c.cfgDhcpEn then 0 else c.cfgIp
    netmask := c.cfgNetmask
    dhcpEn := c.cfgDhcpEn
    dstate := if c.remembersLease then .initReboot else .init
    xid := 0
    dhAddr := if c.remembersLease then c.cfgIp else 0
    serverId := if c.remembersLease then c.cfgLeaseServer else 0
    lease := 0
    t1 := 0
    t2 := 0
    elapsed := 0
    tmo := BitVec.ofNat 16 Config.dhcpTimerLap
    retry := 0
    peerIp := 0
    peerMac := 0
    peerSt := .empty
    lastStatus := 0
    rxCount := 0
    dropCount := 0
    txCount := 0
    tcpSport := 0
    tcpDport := 0
    tcpSeq := 0
    tcpAck := 0
    tcpOffFlags := 0
    tcpCount := 0 }

end Sys2Proof.Machine
end

