-- ==== Sys2Proof/Machine/Frames.lean ====
section
/-! DEFINITION. The frames the engine builds: ARP (42_arp.md R98, R99), IPv4 (43_ipv4_demux.md R112), ICMP echo reply
(44_icmp.md R120), UDP (45_udp_tcp.md R132) and the DHCP messages (47_dhcp_timer_tx.md R168 to R172). None is padded (R47). -/

namespace Sys2Proof.Machine

/-- The Ethernet header (30_encoding.md R61): destination, source, EtherType. -/
def ethHeader (dst src : Mac) (etherType : Half) : Bytes := bytes48 dst ++ bytes48 src ++ bytes16 etherType

/-- An ARP packet for Ethernet and IPv4 (R63): htype 1, ptype 0x0800, hlen 6, plen 4, then `oper` and the addresses. -/
def arpPacket (oper : Half) (sha : Mac) (spa : Ip) (tha : Mac) (tpa : Ip) : Bytes :=
  [0x00, 0x01, 0x08, 0x00, 0x06, 0x04] ++ bytes16 oper ++ bytes48 sha ++ bytes32 spa ++ bytes48 tha ++ bytes32 tpa

/-- `arp_reply_frame` (R98): sent to the request frame's Ethernet source `ethSrc`. -/
def arpReplyFrame (r : Regs) (ethSrc sha : Mac) (spa : Ip) : Bytes :=
  ethHeader ethSrc r.myMac Config.etherTypeArp ++ arpPacket 2 r.myMac r.myIp sha spa

/-- `arp_request_frame(ip)` (R99): broadcast, target hardware address 0. -/
def arpRequestFrame (r : Regs) (ip : Ip) : Bytes :=
  ethHeader Config.broadcastMac r.myMac Config.etherTypeArp ++ arpPacket 1 r.myMac r.myIp 0 ip

/-- The 20-byte IPv4 header of R112 with a zero checksum field, for a payload of `n` bytes. -/
def ipHeaderZero (p : Params) (proto : Byte) (src dst : Ip) (n : Nat) : Bytes :=
  [0x45, 0x00] ++ bytes16 (BitVec.ofNat 16 (20 + n)) ++ [0x00, 0x00, 0x40, 0x00, p.defaultTtl, proto, 0x00, 0x00]
    ++ bytes32 src ++ bytes32 dst

/-- `ip_datagram(proto, src, dst, payload)` (R112), with the header checksum of R83. -/
def ipDatagram (p : Params) (proto : Byte) (src dst : Ip) (payload : Bytes) : Bytes :=
  insertChecksum (ipHeaderZero p proto src dst payload.length) 10 ++ payload

/-- `eth_frame(dstmac, payload)` (R112). -/
def ethFrame (r : Regs) (dst : Mac) (payload : Bytes) : Bytes :=
  ethHeader dst r.myMac Config.etherTypeIpv4 ++ payload

/-- An ICMP message of the given type and code with the bytes from offset 4 on, its checksum inserted (R64, R84). -/
def icmpMessage (type code : Byte) (rest : Bytes) : Bytes := insertChecksum ([type, code, 0x00, 0x00] ++ rest) 2

/-- `echo_reply(P)` (R120): type 0, the request's code, identifier, sequence number and payload. -/
def echoReply (code : Byte) (rest : Bytes) : Bytes := icmpMessage 0 code rest

/-- The UDP datagram of R132 with a zero checksum field. -/
def udpZero (sport dport : Half) (data : Bytes) : Bytes :=
  bytes16 sport ++ bytes16 dport ++ bytes16 (BitVec.ofNat 16 (8 + data.length)) ++ [0x00, 0x00] ++ data

/-- `udp_datagram(src, dst, sport, dport, data)` (R132), with the transmit rule of R81. -/
def udpDatagram (src dst : Ip) (sport dport : Half) (data : Bytes) : Bytes :=
  let u := udpZero sport dport data
  putHalf u 6 (udpTransmitField (csum [pseudo src dst 17 (BitVec.ofNat 16 u.length), u]))

/-- `dhcp_msg(ciaddr, options)` (R168). -/
def dhcpMsg (r : Regs) (ciaddr : Ip) (options : Bytes) : Bytes :=
  [0x01, 0x01, 0x06, 0x00] ++ bytes32 r.xid ++ [0x00, 0x00] ++ [0x80, 0x00] ++ bytes32 ciaddr ++ zeros 12
    ++ bytes48 r.myMac ++ zeros 10 ++ zeros 64 ++ zeros 128 ++ [0x63, 0x82, 0x53, 0x63] ++ options

/-- The messages the client sends (R169, R170). -/
inductive DhcpForm where
  | discover | reqSelect | reqReboot | reqRenew | reqRebind
  deriving DecidableEq, Repr

/-- The `ciaddr` of each form (R169, R170). -/
def DhcpForm.ciaddr (r : Regs) : DhcpForm → Ip
  | .discover => 0
  | .reqSelect => 0
  | .reqReboot => 0
  | .reqRenew => r.myIp
  | .reqRebind => r.myIp

/-- The options of each form (R169, R170): option 53 first, END last. -/
def DhcpForm.options (r : Regs) : DhcpForm → Bytes
  | .discover => [0x35, 0x01, 0x01, 0xFF]
  | .reqSelect => [0x35, 0x01, 0x03, 0x32, 0x04] ++ bytes32 r.dhAddr ++ [0x36, 0x04] ++ bytes32 r.serverId ++ [0xFF]
  | .reqReboot => [0x35, 0x01, 0x03, 0x32, 0x04] ++ bytes32 r.dhAddr ++ [0xFF]
  | .reqRenew => [0x35, 0x01, 0x03, 0xFF]
  | .reqRebind => [0x35, 0x01, 0x03, 0xFF]

/-- The peer slot holds the DHCP server's MAC (R171, REQ_RENEW row). -/
def Regs.serverResolved (r : Regs) : Bool :=
  r.peerSt == .resolved && r.peerIp == r.serverId && r.serverId != 0

/-- The Ethernet destination of each form (R171). -/
def DhcpForm.ethDst (r : Regs) : DhcpForm → Mac
  | .discover => Config.broadcastMac
  | .reqSelect => Config.broadcastMac
  | .reqReboot => Config.broadcastMac
  | .reqRenew => if r.serverResolved then r.peerMac else Config.broadcastMac
  | .reqRebind => Config.broadcastMac

/-- The IPv4 source of each form (R171). -/
def DhcpForm.ipSrc (r : Regs) : DhcpForm → Ip
  | .discover => 0
  | .reqSelect => 0
  | .reqReboot => 0
  | .reqRenew => r.myIp
  | .reqRebind => r.myIp

/-- The IPv4 destination of each form (R171). -/
def DhcpForm.ipDst (r : Regs) : DhcpForm → Ip
  | .discover => Config.broadcastIp
  | .reqSelect => Config.broadcastIp
  | .reqReboot => Config.broadcastIp
  | .reqRenew => if r.serverId = 0 then Config.broadcastIp else r.serverId
  | .reqRebind => Config.broadcastIp

/-- `dhcp_frame(form)` (R172), from port 68 to port 67. -/
def dhcpFrame (p : Params) (r : Regs) (form : DhcpForm) : Bytes :=
  ethFrame r (form.ethDst r)
    (ipDatagram p Config.protoUdp (form.ipSrc r) (form.ipDst r)
      (udpDatagram (form.ipSrc r) (form.ipDst r) Config.dhcpClientPort Config.dhcpServerPort
        (dhcpMsg r (form.ciaddr r) (form.options r))))

end Sys2Proof.Machine
end

