-- ==== Sys2Proof/Machine/Flags.lean ====
section
/-! DEFINITION. The block has no condition flags (10_state.md R12): what records an operation's outcome is the 8-bit status
code of 60_exceptions.md R180. This file holds those codes and the source's classes of them (R181). -/

namespace Sys2Proof.Machine

/-- The status codes of R180, in the table's order and under its names. -/
inductive StatusCode where
  | ok
  | ethRunt | eth8023 | ethUnknownType | ethOversize
  | arpShort | arpBadHtype | arpBadPtype | arpBadHlen | arpBadPlen | arpNotForUs | arpUnsolicited | arpBadOper
  | ipShort | ipBadVersion | ipBadIhl | ipBadChecksum | ipBadTotlen | ipNotForUs | ipFragment | ipUnknownProto
  | icmpShort | icmpBadChecksum | icmpNotEcho | icmpNoAddr
  | udpShort | udpBadLength | udpBadChecksum | udpNoListener
  | tcpBadHeader
  | dhcpShort | dhcpBadOp | dhcpBadCookie | dhcpXidMismatch | dhcpNoMsgtype | dhcpUnexpected | dhcpMissingOption
  | dhcpAddrMismatch | dhcpDisabled | dhcpBadAddr
  | cmdReserved | ifTxError | ifRxError
  deriving DecidableEq, Repr

/-- The code column of R180's table. -/
def StatusCode.code : StatusCode → BitVec 8
  | .ok => 0x00
  | .ethRunt => 0x01
  | .eth8023 => 0x02
  | .ethUnknownType => 0x03
  | .ethOversize => 0x04
  | .arpShort => 0x10
  | .arpBadHtype => 0x11
  | .arpBadPtype => 0x12
  | .arpBadHlen => 0x13
  | .arpBadPlen => 0x14
  | .arpNotForUs => 0x15
  | .arpUnsolicited => 0x16
  | .arpBadOper => 0x17
  | .ipShort => 0x20
  | .ipBadVersion => 0x21
  | .ipBadIhl => 0x22
  | .ipBadChecksum => 0x23
  | .ipBadTotlen => 0x24
  | .ipNotForUs => 0x25
  | .ipFragment => 0x26
  | .ipUnknownProto => 0x27
  | .icmpShort => 0x30
  | .icmpBadChecksum => 0x31
  | .icmpNotEcho => 0x32
  | .icmpNoAddr => 0x33
  | .udpShort => 0x40
  | .udpBadLength => 0x41
  | .udpBadChecksum => 0x42
  | .udpNoListener => 0x43
  | .tcpBadHeader => 0x50
  | .dhcpShort => 0x60
  | .dhcpBadOp => 0x61
  | .dhcpBadCookie => 0x62
  | .dhcpXidMismatch => 0x63
  | .dhcpNoMsgtype => 0x64
  | .dhcpUnexpected => 0x65
  | .dhcpMissingOption => 0x66
  | .dhcpAddrMismatch => 0x67
  | .dhcpDisabled => 0x68
  | .dhcpBadAddr => 0x69
  | .cmdReserved => 0x70
  | .ifTxError => 0x71
  | .ifRxError => 0x72

/-- The classes of the source's taxonomy (R181); its class (3), resource exhaustion, has no code. -/
inductive StatusClass where
  | normal | malformed | otherStation | protocolState | interfaceError | hostCommand
  deriving DecidableEq, Repr

/-- The class of each code (R181). -/
def StatusCode.classOf : StatusCode → StatusClass
  | .ok => .normal
  | .arpNotForUs | .ipNotForUs | .ipFragment | .icmpNoAddr | .udpNoListener => .otherStation
  | .arpUnsolicited | .dhcpXidMismatch | .dhcpUnexpected | .dhcpMissingOption | .dhcpAddrMismatch | .dhcpDisabled
  | .dhcpBadAddr => .protocolState
  | .ifTxError | .ifRxError => .interfaceError
  | .cmdReserved => .hostCommand
  | .ethRunt | .eth8023 | .ethUnknownType | .ethOversize | .arpShort | .arpBadHtype | .arpBadPtype | .arpBadHlen
  | .arpBadPlen | .arpBadOper | .ipShort | .ipBadVersion | .ipBadIhl | .ipBadChecksum | .ipBadTotlen | .ipUnknownProto
  | .icmpShort | .icmpBadChecksum | .icmpNotEcho | .udpShort | .udpBadLength | .udpBadChecksum | .tcpBadHeader
  | .dhcpShort | .dhcpBadOp | .dhcpBadCookie | .dhcpNoMsgtype => .malformed

end Sys2Proof.Machine
end

