-- ==== Sys2Proof/Syntax.lean ====
section
/-! DEFINITION. The operations, commands, tick states and frame classes of the packet engine: one constructor per row of
spec/opcode_table.json, in its order (30_encoding.md R70 to R72). A constructor's operands are the fields its rule reads. -/

namespace Sys2Proof

/-- The four addresses of an ARP packet (30_encoding.md R63, 42_arp.md R93). -/
structure ArpAddrs where
  /-- sender hardware address -/
  sha : Mac
  /-- sender protocol address -/
  spa : Ip
  /-- target hardware address (extracted by R93, examined by no rule) -/
  tha : Mac
  /-- target protocol address -/
  tpa : Ip
  deriving DecidableEq, Repr

/-- The fields of a TCP header that the inspection latches (30_encoding.md R66, 45_udp_tcp.md R131). -/
structure TcpHeader where
  sport : Half
  dport : Half
  seq : Word
  ack : Word
  /-- data offset in bits 15:12, reserved bits and flags in bits 11:0 -/
  offFlags : Half
  deriving DecidableEq, Repr

/-- The values of the DHCP options 51, 54, 58 and 59 of a received message, where present (30_encoding.md R69, 46_dhcp_rx.md R146). -/
structure DhcpOpts where
  /-- option 51, lease time in seconds -/
  lease : Option Word
  /-- option 54, server identifier -/
  server : Option Word
  /-- option 58, renewal time -/
  t1 : Option Word
  /-- option 59, rebinding time -/
  t2 : Option Word
  deriving DecidableEq, Repr

/-- One constructor per row of spec/opcode_table.json. -/
inductive Instr where
  /-- RESET: the reset operation (70_reset_and_hazards.md R200). -/
  | reset
  /-- CMD: the host command operation, dispatching on `CMD_OP` (48_host_ops.md R173). -/
  | cmd
  /-- TICK: the tick operation, dispatching on `DHCP_EN` and `DSTATE` (47_dhcp_timer_tx.md R160). -/
  | tick
  /-- RX: the receive operation on the frame at the head of the FIFO (41_ethernet_classifier.md R86). -/
  | rx
  /-- READ: a status read of one 8-bit address (48_host_ops.md R178). -/
  | read (addr : BitVec 8)
  /-- CMD_NOP (R174). -/
  | cmdNop
  /-- CMD_DHCP_RESTART (R175). -/
  | cmdDhcpRestart
  /-- CMD_ARP_RESOLVE of one IPv4 address (R176). -/
  | cmdArpResolve (ip : Ip)
  /-- CMD_RESERVED: any other `CMD_OP` (R177). -/
  | cmdReserved (op : BitVec 8)
  /-- TICK_STATIC: a tick while `DHCP_EN` = 0 (R160). -/
  | tickStatic
  /-- TICK_INIT (R161). -/
  | tickInit
  /-- TICK_SELECTING (R163). -/
  | tickSelecting
  /-- TICK_REQUESTING (R164). -/
  | tickRequesting
  /-- TICK_BOUND (R166). -/
  | tickBound
  /-- TICK_RENEWING (R166). -/
  | tickRenewing
  /-- TICK_REBINDING (R166). -/
  | tickRebinding
  /-- TICK_INIT_REBOOT (R162). -/
  | tickInitReboot
  /-- TICK_REBOOTING (R165). -/
  | tickRebooting
  /-- ETH_RUNT: a frame of fewer than 14 bytes, with its length (R87). -/
  | ethRunt (len : Nat)
  /-- ETH_OVERSIZE: a frame of more than `MAX_FRAME_LEN` bytes, with its length (R87). -/
  | ethOversize (len : Nat)
  /-- ETH_8023: the EtherType field read as a length (R88). -/
  | eth8023 (len : Half)
  /-- ETH_ARP: the frame's Ethernet source and the bytes after its Ethernet header (R89). -/
  | ethArp (ethSrc : Mac) (pkt : Bytes)
  /-- ETH_IPV4: the frame's Ethernet source and the bytes after its Ethernet header (R90). -/
  | ethIpv4 (ethSrc : Mac) (dgram : Bytes)
  /-- ETH_OTHER: any other EtherType (R91). -/
  | ethOther (etherType : Half)
  /-- ARP_REQUEST: the frame's Ethernet source and the packet's addresses (R95). -/
  | arpRequest (ethSrc : Mac) (a : ArpAddrs)
  /-- ARP_REPLY (R96). -/
  | arpReply (a : ArpAddrs)
  /-- ARP_BAD_OPER (R97). -/
  | arpBadOper (oper : Half)
  /-- IP_ICMP: Ethernet source, IPv4 source and destination, the IPv4 payload (R108). -/
  | ipIcmp (ethSrc : Mac) (src dst : Ip) (msg : Bytes)
  /-- IP_UDP: IPv4 source and destination, the IPv4 payload (R109). -/
  | ipUdp (src dst : Ip) (payload : Bytes)
  /-- IP_TCP: the IPv4 payload (R110). -/
  | ipTcp (segment : Bytes)
  /-- IP_OTHER: any other protocol number (R111). -/
  | ipOther (proto : Byte)
  /-- ICMP_ECHO: Ethernet source, IPv4 source, code, and the message from offset 4 on (R117). -/
  | icmpEcho (ethSrc : Mac) (src : Ip) (code : Byte) (rest : Bytes)
  /-- ICMP_OTHER: any other ICMP type (R118). -/
  | icmpOther (type : Byte)
  /-- UDP_DHCP: the UDP payload of a datagram from port 67 to port 68 (R128). -/
  | udpDhcp (msg : Bytes)
  /-- UDP_OTHER: any other port pair (R129). -/
  | udpOther (sport dport : Half)
  /-- TCP_INSPECT: the parsed header (R131). -/
  | tcpInspect (h : TcpHeader)
  /-- DHCP_OFFER in SELECTING: `yiaddr` and the options (R149). -/
  | dhcpOffer (yiaddr : Ip) (opts : DhcpOpts)
  /-- DHCP_ACK_BIND: an ACK in REQUESTING or REBOOTING (R150). -/
  | dhcpAckBind (yiaddr : Ip) (opts : DhcpOpts)
  /-- DHCP_ACK_EXTEND: an ACK in RENEWING or REBINDING (R151). -/
  | dhcpAckExtend (yiaddr : Ip) (opts : DhcpOpts)
  /-- DHCP_NAK in REQUESTING, REBOOTING, RENEWING or REBINDING (R153). -/
  | dhcpNak
  /-- DHCP_OTHER: any other message type or state, with the type (R154). -/
  | dhcpOther (msgType : Byte)
  deriving DecidableEq, Repr

/-- The format column of spec/opcode_table.json: the level at which a row's selector is read (R71, R72). -/
inductive Format where
  | operation | statusRead | command | tick | ethernet | arp | ipv4 | icmp | udp | tcp | dhcp
  deriving DecidableEq, Repr

/-- The format of each row. -/
def Instr.format : Instr → Format
  | .reset | .cmd | .tick | .rx => .operation
  | .read _ => .statusRead
  | .cmdNop | .cmdDhcpRestart | .cmdArpResolve _ | .cmdReserved _ => .command
  | .tickStatic | .tickInit | .tickSelecting | .tickRequesting | .tickBound | .tickRenewing | .tickRebinding
  | .tickInitReboot | .tickRebooting => .tick
  | .ethRunt _ | .ethOversize _ | .eth8023 _ | .ethArp _ _ | .ethIpv4 _ _ | .ethOther _ => .ethernet
  | .arpRequest _ _ | .arpReply _ | .arpBadOper _ => .arp
  | .ipIcmp _ _ _ _ | .ipUdp _ _ _ | .ipTcp _ | .ipOther _ => .ipv4
  | .icmpEcho _ _ _ _ | .icmpOther _ => .icmp
  | .udpDhcp _ | .udpOther _ _ => .udp
  | .tcpInspect _ => .tcp
  | .dhcpOffer _ _ | .dhcpAckBind _ _ | .dhcpAckExtend _ _ | .dhcpNak | .dhcpOther _ => .dhcp

end Sys2Proof
end

