-- ==== Sys2Proof/Machine/Operands.lean ====
section
/-! DEFINITION. Operand assembly (30_encoding.md R73, R74): for each level of the frame tree, the checks that precede its
dispatch, in the rules' order, and the fields it extracts. A failing check answers its status code (60_exceptions.md R182). -/

namespace Sys2Proof.Machine

/-- ARP entry and validation (42_arp.md R93, R94) on the bytes after the Ethernet header: `oper` and the four addresses. -/
def arpEntry (pkt : Bytes) : Except StatusCode (Half × ArpAddrs) :=
  if pkt.length < 28 then .error .arpShort
  else if be16 pkt 0 ≠ Config.arpHtypeEthernet then .error .arpBadHtype
  else if be16 pkt 2 ≠ Config.etherTypeIpv4 then .error .arpBadPtype
  else if byteAt pkt 4 ≠ 6 then .error .arpBadHlen
  else if byteAt pkt 5 ≠ 4 then .error .arpBadPlen
  else .ok (be16 pkt 6, { sha := be48 pkt 8, spa := be32 pkt 14, tha := be48 pkt 18, tpa := be32 pkt 24 })

/-- What the IPv4 demultiplexer hands on (43_ipv4_demux.md R104): addresses, protocol and payload. -/
structure IpFields where
  src : Ip
  dst : Ip
  proto : Byte
  payload : Bytes
  deriving DecidableEq, Repr

/-- The destination filter of R105: the own address, the limited broadcast, or the subnet broadcast. -/
def acceptsDst (r : Regs) (dst : Ip) : Bool :=
  (r.myIp != 0 && dst == r.myIp) || dst == Config.broadcastIp || (r.myIp != 0 && dst == (r.myIp ||| ~~~ r.netmask))

/-- The fragment test of R106: MF set or fragment offset nonzero; bits 15 and 14 are ignored. -/
def isFragment (ff : Half) : Bool := (ff &&& 0x2000) != 0 || (ff &&& 0x1FFF) != 0

/-- The checks R103 to R106 on a datagram whose header has `hl` bytes. -/
def ipHeaderChecks (r : Regs) (d : Bytes) (hl : Nat) : Except StatusCode IpFields :=
  let h := d.take hl
  let tot := (be16 h 2).toNat
  if !verifies h 10 then .error .ipBadChecksum
  else if tot < hl ∨ d.length < tot then .error .ipBadTotlen
  else if !acceptsDst r (be32 h 16) then .error .ipNotForUs
  else if isFragment (be16 h 6) then .error .ipFragment
  else .ok { src := be32 h 12, dst := be32 h 16, proto := byteAt h 9, payload := slice d hl tot }

/-- IPv4 entry (R100 to R106) on the bytes after the Ethernet header. -/
def ipEntry (r : Regs) (d : Bytes) : Except StatusCode IpFields :=
  let ihl := ((byteAt d 0).extractLsb' 0 4).toNat
  if d.length < 20 then .error .ipShort
  else if (byteAt d 0).extractLsb' 4 4 ≠ 4 then .error .ipBadVersion
  else if ihl < 5 ∨ d.length < ihl * 4 then .error .ipBadIhl
  else ipHeaderChecks r d (ihl * 4)

/-- The fields of an ICMP message that R117 and R118 read: type, code and everything from offset 4 on. -/
structure IcmpFields where
  type : Byte
  code : Byte
  rest : Bytes
  deriving DecidableEq, Repr

/-- ICMP entry (44_icmp.md R115, R116). -/
def icmpEntry (m : Bytes) : Except StatusCode IcmpFields :=
  if m.length < 8 then .error .icmpShort
  else if !verifies m 2 then .error .icmpBadChecksum
  else .ok { type := byteAt m 0, code := byteAt m 1, rest := m.drop 4 }

/-- The ports and the payload of a UDP datagram (45_udp_tcp.md R125, R128). -/
structure UdpFields where
  sport : Half
  dport : Half
  data : Bytes
  deriving DecidableEq, Repr

/-- UDP entry (R125 to R127); bytes of the payload after the UDP length are ignored. -/
def udpEntry (src dst : Ip) (p : Bytes) : Except StatusCode UdpFields :=
  let ulen := (be16 p 4).toNat
  if p.length < 8 then .error .udpShort
  else if ulen < 8 ∨ p.length < ulen then .error .udpBadLength
  else if !udpVerifies src dst (p.take ulen) then .error .udpBadChecksum
  else .ok { sport := be16 p 0, dport := be16 p 2, data := slice p 8 ulen }

/-- TCP header check and the fields R131 latches (R130, R131). -/
def tcpEntry (p : Bytes) : Except StatusCode TcpHeader :=
  let doff := ((byteAt p 12).extractLsb' 4 4).toNat
  if p.length < 20 then .error .tcpBadHeader
  else if doff < 5 ∨ p.length < doff * 4 then .error .tcpBadHeader
  else .ok { sport := be16 p 0, dport := be16 p 2, seq := be32 p 4, ack := be32 p 8, offFlags := be16 p 12 }

/-- The options a reply's parse has recorded so far (46_dhcp_rx.md R145 `opts`). -/
structure ParsedOpts where
  /-- option 53, the message type -/
  msgType : Option Byte
  /-- options 51, 54, 58 and 59 -/
  opts : DhcpOpts
  deriving DecidableEq, Repr

/-- The empty map of R145. -/
def ParsedOpts.empty : ParsedOpts :=
  { msgType := none, opts := { lease := none, server := none, t1 := none, t2 := none } }

/-- `record(code, olen, v)` of R146, `v` being the option's `olen` value bytes: the first well-formed occurrence is kept. -/
def recordOption (o : ParsedOpts) (code : Byte) (v : Bytes) : ParsedOpts :=
  if code = 53 then
    if o.msgType = none ∧ v.length = 1 then { o with msgType := some (byteAt v 0) } else o
  else if v.length ≠ 4 then o
  else if code = 51 then
    if o.opts.lease = none then { o with opts := { o.opts with lease := some (be32 v 0) } } else o
  else if code = 54 then
    if o.opts.server = none then { o with opts := { o.opts with server := some (be32 v 0) } } else o
  else if code = 58 then
    if o.opts.t1 = none then { o with opts := { o.opts with t1 := some (be32 v 0) } } else o
  else if code = 59 then
    if o.opts.t2 = none then { o with opts := { o.opts with t2 := some (be32 v 0) } } else o
  else o

/-- The loop of R145 over the option bytes still to examine; `fuel` is at least their number (each turn consumes one or more). -/
def parseOptions : Nat → Bytes → ParsedOpts → ParsedOpts
  | 0, _, o => o
  | _ + 1, [], o => o
  | fuel + 1, code :: rest, o =>
    if code = 255 then o
    else if code = 0 then parseOptions fuel rest o
    else
      match rest with
      | [] => o
      | olen :: body =>
        if body.length < olen.toNat then o
        else parseOptions fuel (body.drop olen.toNat) (recordOption o code (body.take olen.toNat))

/-- The option bytes R145 examines: offset 240 to `e = min(n, 240 + DHCP_OPT_BUF_LEN)`. -/
def optionBytes (p : Params) (d : Bytes) : Bytes := slice d 240 (240 + p.optBufLen)

/-- What the acceptance checks hand on to the dispatch of R148: `yiaddr`, the message type and the options. -/
structure DhcpFields where
  yiaddr : Ip
  msgType : Byte
  opts : DhcpOpts
  deriving DecidableEq, Repr

/-- DHCP entry: the acceptance checks of 46_dhcp_rx.md R140 to R147, in that order. -/
def dhcpEntry (p : Params) (r : Regs) (d : Bytes) : Except StatusCode DhcpFields :=
  if !r.dhcpEn then .error .dhcpDisabled
  else if d.length < 240 then .error .dhcpShort
  else if byteAt d 0 ≠ 2 then .error .dhcpBadOp
  else if be32 d 236 ≠ Config.magicCookie then .error .dhcpBadCookie
  else if be32 d 4 ≠ r.xid then .error .dhcpXidMismatch
  else
    let o := parseOptions (optionBytes p d).length (optionBytes p d) .empty
    match o.msgType with
    | none => .error .dhcpNoMsgtype
    | some mt => .ok { yiaddr := be32 d 16, msgType := mt, opts := o.opts }

end Sys2Proof.Machine
end

