-- ==== Sys2Proof/WellFormed.lean ====
section
/-! DEFINITION. The well-formedness of an instruction: its operands are in the range that its row of the operation map gives
(30_encoding.md R70, R72, R74). Context-free; what the registers decide is `Instr.admitted` in Decode.lean. -/

namespace Sys2Proof

/-- A data offset of at least 5 words (R130). -/
def TcpHeader.wf (h : TcpHeader) : Bool := decide (5 ≤ (h.offFlags.extractLsb' 12 4).toNat)

/-- Each check is the row's own match column (R72) or the length its unit may have (R74). -/
def Instr.WellFormed : Instr → Bool
  | .reset => true
  | .cmd => true
  | .tick => true
  | .rx => true
  | .read _ => true
  | .cmdNop => true
  | .cmdDhcpRestart => true
  | .cmdArpResolve _ => true
  | .cmdReserved op => decide (3 ≤ op.toNat)
  | .tickStatic => true
  | .tickInit => true
  | .tickSelecting => true
  | .tickRequesting => true
  | .tickBound => true
  | .tickRenewing => true
  | .tickRebinding => true
  | .tickInitReboot => true
  | .tickRebooting => true
  | .ethRunt len => decide (len < 14)
  | .ethOversize len => decide (Config.maxFrameLen < len)
  | .eth8023 len => decide (len.toNat ≤ Config.lengthLimit.toNat)
  | .ethArp _ pkt => decide (pkt.length ≤ Config.mtu)
  | .ethIpv4 _ dgram => decide (dgram.length ≤ Config.mtu)
  | .ethOther et =>
      decide (Config.lengthLimit.toNat < et.toNat) && et != Config.etherTypeArp && et != Config.etherTypeIpv4
  | .arpRequest _ _ => true
  | .arpReply _ => true
  | .arpBadOper oper => oper != 1 && oper != 2
  | .ipIcmp _ _ _ msg => decide (msg.length + 20 ≤ Config.mtu)
  | .ipUdp _ _ payload => decide (payload.length + 20 ≤ Config.mtu)
  | .ipTcp segment => decide (segment.length + 20 ≤ Config.mtu)
  | .ipOther proto => proto != Config.protoIcmp && proto != Config.protoUdp && proto != Config.protoTcp
  | .icmpEcho _ _ _ rest => decide (4 ≤ rest.length) && decide (rest.length + 24 ≤ Config.mtu)
  | .icmpOther type => type != Config.icmpEchoType
  | .udpDhcp msg => decide (msg.length + 28 ≤ Config.mtu)
  | .udpOther sport dport => !(sport == Config.dhcpServerPort && dport == Config.dhcpClientPort)
  | .tcpInspect h => h.wf
  | .dhcpOffer _ _ => true
  | .dhcpAckBind _ _ => true
  | .dhcpAckExtend _ _ => true
  | .dhcpNak => true
  | .dhcpOther _ => true

end Sys2Proof
end

