-- ==== Sys2Proof/Decode.lean ====
section
/-! DEFINITION. The decoder and the encoder (30_encoding.md R70 to R74). The decoder answers the DEEPEST row of the operation
map whose preconditions have passed; a row that is not a leaf is answered when the next level's checks refuse its payload (log 8). -/

namespace Sys2Proof

open Machine

/-- Where the bytes arrive: the arbiter's choice (the byte is the table's priority number), the command register
(`CMD_OP`, then `CMD_ARG`), the tick dispatch (`DHCP_EN`, then `DSTATE`), the receive FIFO's head, the read port's address.
Only the command pair and the frame have an encoding in the spec (R76); the others are the model's (log 8). -/
inductive Port where
  | operation | command | tick | frame | read
  deriving DecidableEq, Repr

/-- What the decoder refuses, by name; a frame is never refused (R75). -/
inductive DecodeError where
  /-- the operation byte is not 1 RESET, 2 CMD, 3 TICK or 4 RX -/
  | operationSelector
  /-- a command is not `CMD_OP` and the four bytes of `CMD_ARG` -/
  | commandLength
  /-- a tick dispatch is not `DHCP_EN` (0 or 1) and `DSTATE` (0 to 7) -/
  | tickSelector
  /-- a status read is not one address byte -/
  | readLength
  deriving DecidableEq, Repr

/-- The command map (R70). -/
def decodeCommand (op : BitVec 8) (arg : BitVec 32) : Instr :=
  if op = 0 then .cmdNop
  else if op = 1 then .cmdDhcpRestart
  else if op = 2 then .cmdArpResolve arg
  else .cmdReserved op

/-- The tick dispatch (47_dhcp_timer_tx.md R160). -/
def decodeTick (dhcpEn : Bool) (d : DState) : Instr :=
  if !dhcpEn then .tickStatic
  else
    match d with
    | .init => .tickInit
    | .selecting => .tickSelecting
    | .requesting => .tickRequesting
    | .bound => .tickBound
    | .renewing => .tickRenewing
    | .rebinding => .tickRebinding
    | .initReboot => .tickInitReboot
    | .rebooting => .tickRebooting

/-- The DHCP dispatch by state and message type (46_dhcp_rx.md R148). -/
def decodeDhcpType (d : DState) (m : DhcpFields) : Instr :=
  if m.msgType = 2 ∧ d = .selecting then .dhcpOffer m.yiaddr m.opts
  else if m.msgType = 5 ∧ (d = .requesting ∨ d = .rebooting) then .dhcpAckBind m.yiaddr m.opts
  else if m.msgType = 5 ∧ (d = .renewing ∨ d = .rebinding) then .dhcpAckExtend m.yiaddr m.opts
  else if m.msgType = 6 ∧ (d = .requesting ∨ d = .rebooting ∨ d = .renewing ∨ d = .rebinding) then .dhcpNak
  else .dhcpOther m.msgType

/-- The DHCP level (R140 to R148). -/
def decodeDhcp (p : Params) (r : Regs) (d : Bytes) : Instr :=
  match dhcpEntry p r d with
  | .error _ => .udpDhcp d
  | .ok m => decodeDhcpType r.dstate m

/-- The UDP level (45_udp_tcp.md R125 to R129). -/
def decodeUdp (p : Params) (r : Regs) (src dst : Ip) (payload : Bytes) : Instr :=
  match udpEntry src dst payload with
  | .error _ => .ipUdp src dst payload
  | .ok u =>
    if u.sport = Config.dhcpServerPort ∧ u.dport = Config.dhcpClientPort then decodeDhcp p r u.data
    else .udpOther u.sport u.dport

/-- The TCP level (R130, R131). -/
def decodeTcp (segment : Bytes) : Instr :=
  match tcpEntry segment with
  | .error _ => .ipTcp segment
  | .ok h => .tcpInspect h

/-- The ICMP level (44_icmp.md R115 to R118). -/
def decodeIcmp (ethSrc : Mac) (src dst : Ip) (msg : Bytes) : Instr :=
  match icmpEntry msg with
  | .error _ => .ipIcmp ethSrc src dst msg
  | .ok m => if m.type = Config.icmpEchoType then .icmpEcho ethSrc src m.code m.rest else .icmpOther m.type

/-- The IPv4 level (43_ipv4_demux.md R100 to R107). -/
def decodeIpv4 (p : Params) (r : Regs) (ethSrc : Mac) (dgram : Bytes) : Instr :=
  match ipEntry r dgram with
  | .error _ => .ethIpv4 ethSrc dgram
  | .ok h =>
    if h.proto = Config.protoIcmp then decodeIcmp ethSrc h.src h.dst h.payload
    else if h.proto = Config.protoUdp then decodeUdp p r h.src h.dst h.payload
    else if h.proto = Config.protoTcp then decodeTcp h.payload
    else .ipOther h.proto

/-- The ARP level (42_arp.md R93 to R97). -/
def decodeArp (ethSrc : Mac) (pkt : Bytes) : Instr :=
  match arpEntry pkt with
  | .error _ => .ethArp ethSrc pkt
  | .ok (oper, a) => if oper = 1 then .arpRequest ethSrc a else if oper = 2 then .arpReply a else .arpBadOper oper

/-- The Ethernet level (41_ethernet_classifier.md R87 to R91). -/
def decodeFrame (p : Params) (r : Regs) (f : Bytes) : Instr :=
  let et := be16 f 12
  if f.length < 14 then .ethRunt f.length
  else if Config.maxFrameLen < f.length then .ethOversize f.length
  else if et.toNat ≤ Config.lengthLimit.toNat then .eth8023 et
  else if et = Config.etherTypeArp then decodeArp (be48 f 6) (f.drop 14)
  else if et = Config.etherTypeIpv4 then decodeIpv4 p r (be48 f 6) (f.drop 14)
  else .ethOther et

/-- The decoder: total on any bytes at any port; the registers decide where R72's preconditions read them. -/
def decode (p : Params) (r : Regs) (port : Port) (bs : Bytes) : Except DecodeError Instr :=
  match port, bs with
  | .operation, [b] =>
    if b = 1 then .ok .reset
    else if b = 2 then .ok .cmd
    else if b = 3 then .ok .tick
    else if b = 4 then .ok .rx
    else .error .operationSelector
  | .operation, _ => .error .operationSelector
  | .command, [op, a3, a2, a1, a0] => .ok (decodeCommand op (be32 [a3, a2, a1, a0] 0))
  | .command, _ => .error .commandLength
  | .tick, [e, d] =>
    if 2 ≤ e.toNat ∨ 8 ≤ d.toNat then .error .tickSelector
    else .ok (decodeTick (e == 1) (DState.ofCode (d.extractLsb' 0 3)))
  | .tick, _ => .error .tickSelector
  | .frame, f => .ok (decodeFrame p r f)
  | .read, [a] => .ok (.read a)
  | .read, _ => .error .readLength

/-! ## The encoder -/

/-- One option of a DHCP message (R68): code, length 4, value; nothing where the value is absent. -/
def encodeOption (code : Byte) : Option Word → Bytes
  | none => []
  | some v => [code, 4] ++ bytes32 v

/-- The options of a server's message: option 53 first, the present ones of 51, 54, 58 and 59, END last (R68, R69). -/
def encodeOptions (msgType : Byte) (o : DhcpOpts) : Bytes :=
  [53, 1, msgType] ++ encodeOption 51 o.lease ++ encodeOption 54 o.server ++ encodeOption 58 o.t1
    ++ encodeOption 59 o.t2 ++ [255]

/-- No option of R69 but 53. -/
def noOpts : DhcpOpts := { lease := none, server := none, t1 := none, t2 := none }

/-- A server's message (R67): op 2, the current `XID`, `yiaddr`, zeros where no rule reads, the cookie and the options. -/
def serverMsg (r : Regs) (yiaddr : Ip) (options : Bytes) : Bytes :=
  [2, 1, 6, 0] ++ bytes32 r.xid ++ zeros 8 ++ bytes32 yiaddr ++ zeros 8 ++ bytes48 r.myMac ++ zeros 10
    ++ zeros 192 ++ bytes32 Config.magicCookie ++ options

/-- A frame carrying `payload` under `etherType` from `ethSrc`, to the broadcast MAC. -/
def encodeEth (ethSrc : Mac) (etherType : Half) (payload : Bytes) : Bytes :=
  ethHeader Config.broadcastMac ethSrc etherType ++ payload

/-- An IPv4 frame (R112's header form); the limited broadcast is a destination that R105 accepts whatever the registers hold. -/
def encodeIp (p : Params) (ethSrc : Mac) (proto : Byte) (src dst : Ip) (payload : Bytes) : Bytes :=
  encodeEth ethSrc Config.etherTypeIpv4 (ipDatagram p proto src dst payload)

/-- A UDP frame from 0.0.0.0 to the limited broadcast. -/
def encodeUdp (p : Params) (sport dport : Half) (data : Bytes) : Bytes :=
  encodeIp p 0 Config.protoUdp 0 Config.broadcastIp (udpDatagram 0 Config.broadcastIp sport dport data)

/-- A DHCP message in a frame from port 67 to port 68. -/
def encodeDhcp (p : Params) (d : Bytes) : Bytes := encodeUdp p Config.dhcpServerPort Config.dhcpClientPort d

/-- A TCP segment that is its header alone, as long as its data offset says (R66, R74). -/
def encodeTcp (h : TcpHeader) : Bytes :=
  bytes16 h.sport ++ bytes16 h.dport ++ bytes32 h.seq ++ bytes32 h.ack ++ bytes16 h.offFlags
    ++ zeros ((h.offFlags.extractLsb' 12 4).toNat * 4 - 14)

/-- The port and the bytes of a well-formed instruction. Fields that no rule examines are written as zeros or as the engine
itself writes them (log 20). -/
def encode (p : Params) (r : Regs) : Instr → Port × Bytes
  | .reset => (.operation, [1])
  | .cmd => (.operation, [2])
  | .tick => (.operation, [3])
  | .rx => (.operation, [4])
  | .read a => (.read, [a])
  | .cmdNop => (.command, [0, 0, 0, 0, 0])
  | .cmdDhcpRestart => (.command, [1, 0, 0, 0, 0])
  | .cmdArpResolve ip => (.command, 2 :: bytes32 ip)
  | .cmdReserved op => (.command, [op, 0, 0, 0, 0])
  | .tickStatic => (.tick, [0, 0])
  | .tickInit => (.tick, [1, 0])
  | .tickSelecting => (.tick, [1, 1])
  | .tickRequesting => (.tick, [1, 2])
  | .tickBound => (.tick, [1, 3])
  | .tickRenewing => (.tick, [1, 4])
  | .tickRebinding => (.tick, [1, 5])
  | .tickInitReboot => (.tick, [1, 6])
  | .tickRebooting => (.tick, [1, 7])
  | .ethRunt len => (.frame, zeros len)
  | .ethOversize len => (.frame, zeros len)
  | .eth8023 len => (.frame, encodeEth 0 len [])
  | .ethArp ethSrc pkt => (.frame, encodeEth ethSrc Config.etherTypeArp pkt)
  | .ethIpv4 ethSrc dgram => (.frame, encodeEth ethSrc Config.etherTypeIpv4 dgram)
  | .ethOther et => (.frame, encodeEth 0 et [])
  | .arpRequest ethSrc a => (.frame, encodeEth ethSrc Config.etherTypeArp (arpPacket 1 a.sha a.spa a.tha a.tpa))
  | .arpReply a => (.frame, encodeEth 0 Config.etherTypeArp (arpPacket 2 a.sha a.spa a.tha a.tpa))
  | .arpBadOper oper => (.frame, encodeEth 0 Config.etherTypeArp (arpPacket oper 0 0 0 0))
  | .ipIcmp ethSrc src dst msg => (.frame, encodeIp p ethSrc Config.protoIcmp src dst msg)
  | .ipUdp src dst payload => (.frame, encodeIp p 0 Config.protoUdp src dst payload)
  | .ipTcp segment => (.frame, encodeIp p 0 Config.protoTcp 0 Config.broadcastIp segment)
  | .ipOther proto => (.frame, encodeIp p 0 proto 0 Config.broadcastIp [])
  | .icmpEcho ethSrc src code rest =>
      (.frame, encodeIp p ethSrc Config.protoIcmp src Config.broadcastIp (icmpMessage Config.icmpEchoType code rest))
  | .icmpOther type => (.frame, encodeIp p 0 Config.protoIcmp 0 Config.broadcastIp (icmpMessage type 0 (zeros 4)))
  | .udpDhcp msg => (.frame, encodeDhcp p msg)
  | .udpOther sport dport => (.frame, encodeUdp p sport dport [])
  | .tcpInspect h => (.frame, encodeIp p 0 Config.protoTcp 0 Config.broadcastIp (encodeTcp h))
  | .dhcpOffer y o => (.frame, encodeDhcp p (serverMsg r y (encodeOptions 2 o)))
  | .dhcpAckBind y o => (.frame, encodeDhcp p (serverMsg r y (encodeOptions 5 o)))
  | .dhcpAckExtend y o => (.frame, encodeDhcp p (serverMsg r y (encodeOptions 5 o)))
  | .dhcpNak => (.frame, encodeDhcp p (serverMsg r 0 (encodeOptions 6 noOpts)))
  | .dhcpOther mt => (.frame, encodeDhcp p (serverMsg r 0 (encodeOptions mt noOpts)))

/-- The next level's checks refuse this payload: the condition under which a row that is not a leaf is the deepest one. -/
def refuses {α : Type} : Except StatusCode α → Bool
  | .error _ => true
  | .ok _ => false

/-- The registers admit this row: its destination passes R105, its payload stops at this level, and the DHCP rows stand in a
state that R148 gives them. With `WellFormed` this is exactly what the decoder can answer. -/
def Instr.admitted (p : Params) (r : Regs) : Instr → Bool
  | .ethArp _ pkt => refuses (arpEntry pkt)
  | .ethIpv4 _ dgram => refuses (ipEntry r dgram)
  | .ipIcmp _ _ dst msg => acceptsDst r dst && refuses (icmpEntry msg)
  | .ipUdp src dst payload => acceptsDst r dst && refuses (udpEntry src dst payload)
  | .ipTcp segment => refuses (tcpEntry segment)
  | .udpDhcp msg => refuses (dhcpEntry p r msg)
  | .dhcpOffer _ _ => r.dhcpEn && r.dstate == .selecting
  | .dhcpAckBind _ _ => r.dhcpEn && (r.dstate == .requesting || r.dstate == .rebooting)
  | .dhcpAckExtend _ _ => r.dhcpEn && (r.dstate == .renewing || r.dstate == .rebinding)
  | .dhcpNak =>
      r.dhcpEn && (r.dstate == .requesting || r.dstate == .rebooting || r.dstate == .renewing || r.dstate == .rebinding)
  | .dhcpOther mt =>
      r.dhcpEn && decodeDhcpType r.dstate { yiaddr := 0, msgType := mt, opts := noOpts } == .dhcpOther mt
  | _ => true

/-! ## The opcode table's words -/

/-- A frame that carries an opcode-table selector of a frame class: a 16-bit ARP `oper` or EtherType, an 8-bit ICMP type or
IPv4 protocol, a 32-bit UDP port pair; everything else in it is what the selector's preconditions need (log 9). -/
def tableFrame (nbits w : Nat) : Bytes :=
  if nbits ≤ 8 then
    if w % 256 = 8 then
      encodeIp .vectors 0 Config.protoIcmp 0 Config.broadcastIp (icmpMessage 8 0 (zeros 4))
    else encodeIp .vectors 0 (BitVec.ofNat 8 w) 0 Config.broadcastIp []
  else if nbits ≤ 16 then
    if w % 65536 = 1 ∨ w % 65536 = 2 then
      encodeEth 0 Config.etherTypeArp (arpPacket (BitVec.ofNat 16 w) 0 0 0 0)
    else encodeEth 0 (BitVec.ofNat 16 w) []
  else encodeUdp .vectors (BitVec.ofNat 16 (w / 65536)) (BitVec.ofNat 16 w) []

/-- The port and bytes of an opcode-table word. The table gives a selector without its level, and the levels' selectors
overlap, so one reading is fixed (log 9): of 8 bits, 0 to 2 are `CMD_OP`, 3 to 7 `DSTATE`, 8 an ICMP type, 17 an IPv4
protocol, the rest `CMD_OP`; up to 7 bits `DSTATE`; 16 bits an ARP `oper` (1, 2) or EtherType; 32 bits a UDP port pair; more
than 32 bits a whole command word, `CMD_OP` in bits 7:0 and `CMD_ARG` in bits 39:8. -/
def tableWord (nbits w : Nat) : Port × Bytes :=
  if nbits ≤ 7 then (.tick, [1, BitVec.ofNat 8 (w % 8)])
  else if nbits ≤ 8 then
    if 3 ≤ w % 256 ∧ w % 256 ≤ 7 then (.tick, [1, BitVec.ofNat 8 w])
    else if w % 256 = 8 ∨ w % 256 = 17 then (.frame, tableFrame nbits w)
    else (.command, [BitVec.ofNat 8 w, 0, 0, 0, 0])
  else if nbits ≤ 32 then (.frame, tableFrame nbits w)
  else (.command, BitVec.ofNat 8 w :: bytes32 (BitVec.ofNat 32 (w / 256)))

/-- The instruction the decoder reads from an opcode-table word, under the registers and parameters of `State.reset`. -/
def decodeTableWord (nbits w : Nat) : Option Instr :=
  match decode .vectors (.atReset .static) (tableWord nbits w).1 (tableWord nbits w).2 with
  | .ok i => some i
  | .error _ => none

end Sys2Proof
end

