-- ==== Sys2Proof/Machine/State.lean ====
section
/-! DEFINITION. The state of the machine: the block's registers, its event inputs, the operation it may be holding, and the
environment it is connected to (10_state.md; 00_scope.md R3), all of it plain data. -/

namespace Sys2Proof.Machine

/-- What stops the machine with a fault: NOTHING. No frame, command, tick or interface error stops the engine
(60_exceptions.md R199), and no behaviour of the block is a fault (93_implementation_defined.md part 1); the type has no
constructor, so that no step can raise one. Safe. -/
inductive Fault where
  deriving DecidableEq, Repr

/-- Why a step has no meaning. -/
inductive Refusal where
  /-- An instruction without a meaning yet; raised by an arm of `exec` only (no arm of this model raises it). Safe. -/
  | notModelled (mnemonic : String)
  /-- The receive MAC changed a frame it had delivered and the engine had not released: an environment the spec gives no
  meaning (20_memory.md R53, 70_reset_and_hazards.md R208, I11 `refuse`). Raised by the environment's move alone. Safe. -/
  | headFrameChanged
  /-- The pending input's bytes do not decode; raised by `engineStep`, and never reached, since every pending input decodes
  (Laws/Engine.lean, `fetch_decodes`). Safe. -/
  | undecodable (reason : DecodeError)
  deriving DecidableEq, Repr

/-- One outcome of a meaning or a step. -/
abbrev Out (σ : Type) := Host.Outcome σ Fault Refusal

/-- A frame in the receive FIFO: its bytes, and the receive MAC's error flag (R188). -/
structure RxFrame where
  bytes : Bytes
  err : Bool
  deriving DecidableEq, Repr

/-- The operations that end with completion writes (60_exceptions.md R186); RESET ends with its reset values. -/
inductive OpKind where
  | cmd | tick | rx
  deriving DecidableEq, Repr

/-- An operation in progress that waits for the transmit MAC's answer (R196): its kind, its private copy of the registers
and the frame it holds (R185). -/
structure Held where
  kind : OpKind
  regs : Regs
  frame : Bytes
  deriving DecidableEq, Repr

/-- What the transmit MAC says when asked about the frame held: accept, error, or no answer yet (R196). -/
inductive TxAnswer where
  | accept | error | wait
  deriving DecidableEq, Repr

/-- One move of an agent outside the engine (R3), or the engine's own turn. -/
inductive EnvEvent where
  /-- the engine's turn: one move of `engineStep` -/
  | engine
  /-- the tick source delivers a pulse (10_state.md R36) -/
  | tickPulse
  /-- the receive MAC appends a frame, or drops it when the FIFO is full (20_memory.md R42) -/
  | frameArrives (f : RxFrame)
  /-- the host writes the command register (R37, 48_host_ops.md R179) -/
  | commandWrite (op : BitVec 8) (arg : BitVec 32)
  /-- the host reads a status address (R178) -/
  | statusRead (addr : BitVec 8)
  /-- the platform asserts the reset input (70_reset_and_hazards.md R202) -/
  | assertReset
  /-- the platform deasserts the reset input -/
  | deassertReset
  /-- the platform sets the configuration inputs (R204) -/
  | setPins (c : Pins)
  /-- the random source fixes the answer to a coming draw (30_encoding.md R76 `DRAW`) -/
  | draw (v : BitVec 32)
  /-- the transmit MAC fixes its answer to a coming question (R76 `TXERR`) -/
  | txAnswer (a : TxAnswer)
  /-- the receive MAC changes the head frame before its release (R53, R208) -/
  | headChanged (bytes : Bytes)
  deriving DecidableEq, Repr

/-- The machine's state. -/
structure State where
  /-- the committed registers (10_state.md R13 to R35; 60_exceptions.md R185) -/
  regs : Regs
  /-- `TICK_PEND`, 8 bits, saturating (R36) -/
  tickPend : BitVec 8
  /-- `CMD_VALID`, 1 bit (R37) -/
  cmdValid : Bool
  /-- `CMD_OP`, 8 bits (R37) -/
  cmdOp : BitVec 8
  /-- `CMD_ARG`, 32 bits (R37) -/
  cmdArg : BitVec 32
  /-- the operation in progress, waiting for the transmit MAC (60_exceptions.md R185, R196) -/
  held : Option Held
  /-- the receive FIFO, oldest first (R39, 20_memory.md R42) -/
  rxFifo : List RxFrame
  /-- the transmit stream: every frame the transmit MAC has accepted, in order (R39, 20_memory.md R47) -/
  txStream : List Bytes
  /-- the level of the reset input (60_exceptions.md R183) -/
  resetIn : Bool
  /-- the levels of the configuration inputs (00_scope.md R5) -/
  pins : Pins
  /-- the OPEN parameters of R5; no step writes them -/
  params : Params
  /-- the answers the random source will give the next draws (R8) -/
  draws : List (BitVec 32)
  /-- how many draws were made with no answer in `draws`: the MODEL's own counter, read by `Config.freeDraw` -/
  drawIndex : Nat
  /-- the answers the transmit MAC will give when asked (R196); with none left it accepts at once -/
  txAnswers : List TxAnswer
  /-- the moves still to come of the agents outside the engine, in the order they happen: the run's script (R76; log 1) -/
  env : List EnvEvent
  /-- what the host has read, in order: address and image (R178); outside the block -/
  hostReads : List (BitVec 8 × BitVec 32)
  deriving DecidableEq, Repr

/-- The machine right after reset (R200) under the configuration inputs and parameters given, with nothing pending: FIFO,
stream and scripts empty. -/
def State.afterReset (c : Pins) (p : Params) : State :=
  { regs := .atReset c, tickPend := 0, cmdValid := false, cmdOp := 0, cmdArg := 0, held := none, rxFifo := [],
    txStream := [], resetIn := false, pins := c, params := p, draws := [], drawIndex := 0, txAnswers := [], env := [],
    hostReads := [] }

/-- The machine right after reset: every register at R200's value, the configuration inputs at configuration S and the OPEN
parameters at the values of 95_test_vectors.md section 0 (DESIGN CHOICE, log 3). -/
def State.reset : State := .afterReset .static .vectors

end Sys2Proof.Machine
end

