-- ==== Sys2Proof/Machine/Ops.lean ====
section
/-! DEFINITION. The named operations every meaning is built from: how an operation ends (commit, drop, completion writes and
the transmit handshake, 60_exceptions.md R185 to R188, R196), the draw of a random value, and the status read map.
The block has no trap entry and no return (R189, R190): a drop is all that an exception is here. -/

namespace Sys2Proof.Machine

/-- How an operation's handler ends (R8): `finish(0x00)` with its private copy of the registers and the frame it called `Emit`
on, if any; or `raise Drop(code)`, which discards both (R186). -/
inductive OpEnd where
  | finish (r : Regs) (tx : Option Bytes)
  | drop (c : StatusCode)
  deriving DecidableEq, Repr

/-- The completion writes of an operation that ends with status `c`, on the committed registers (R186). The `TICK_PEND`
decrement is of a natural number: it stops at 0 (log 10). -/
def State.close (s : State) (k : OpKind) (c : StatusCode) : State :=
  match k with
  | .rx =>
    { s with
      rxFifo := s.rxFifo.tail
      regs := { s.regs with
        rxCount := inc s.regs.rxCount
        dropCount := if c = .ok then s.regs.dropCount else inc s.regs.dropCount
        lastStatus := c.code } }
  | .cmd => { s with cmdValid := false, regs := { s.regs with lastStatus := c.code } }
  | .tick =>
    { s with
      tickPend := if s.tickPend = 0 then 0 else s.tickPend - 1
      regs := { s.regs with lastStatus := c.code } }

/-- Commit with the frame accepted (R185): the copy becomes the committed registers, the frame joins the transmit stream,
`TX_COUNT` grows, and the completion writes follow, all in one step. -/
def State.commitSent (s : State) (k : OpKind) (r : Regs) (t : Bytes) : State :=
  { s with regs := { r with txCount := inc r.txCount }, txStream := s.txStream ++ [t] }.close k .ok

/-- The transmit handshake (R196): the frame is held until the transmit MAC answers. Accept commits (R185); an error discards
the copy and the frame, status 0x71 (R187); no answer yet leaves the operation in progress. With no answer scripted the
transmit MAC accepts at once, as R196 allows. -/
def State.offer (s : State) (k : OpKind) (r : Regs) (t : Bytes) : State :=
  match s.txAnswers with
  | [] => s.commitSent k r t
  | .accept :: rest => { s with txAnswers := rest }.commitSent k r t
  | .error :: rest => { s with txAnswers := rest }.close k .ifTxError
  | .wait :: rest => { s with txAnswers := rest, held := some { kind := k, regs := r, frame := t } }

/-- The end of an operation of kind `k` (R185, R186). -/
def State.complete (s : State) (k : OpKind) (e : OpEnd) : State :=
  match e with
  | .drop c => s.close k c
  | .finish r none => { s with regs := r }.close k .ok
  | .finish r (some t) => s.offer k r t

/-- The operation in progress asks the transmit MAC again (R196). -/
def State.resume (s : State) (h : Held) : State := { s with held := none }.offer h.kind h.regs h.frame

/-- `Draw32()` (R8): the value the random source gives, used up whatever becomes of the operation (30_encoding.md R76, D44);
with none scripted, a free value. -/
def State.drawValue (s : State) : BitVec 32 :=
  match s.draws with
  | [] => Config.freeDraw s.drawIndex
  | v :: _ => v

/-- The random source after a draw. -/
def State.drawn (s : State) : State :=
  match s.draws with
  | [] => { s with drawIndex := s.drawIndex + 1 }
  | _ :: rest => { s with draws := rest }

/-- The status read map (10_state.md R38): the 32-bit image of each address; bits not named and reserved addresses read 0. -/
def State.image (s : State) (a : BitVec 8) : BitVec 32 :=
  match a.toNat with
  | 0x00 => s.regs.dstate.code.setWidth 32 ||| (if s.regs.dhcpEn then 0x100 else 0)
  | 0x01 => s.regs.myIp
  | 0x02 => s.regs.netmask
  | 0x03 => (s.regs.myMac.extractLsb' 32 16).setWidth 32
  | 0x04 => s.regs.myMac.extractLsb' 0 32
  | 0x05 => s.regs.dhAddr
  | 0x06 => s.regs.serverId
  | 0x07 => s.regs.lease
  | 0x08 => s.regs.t1
  | 0x09 => s.regs.t2
  | 0x0A => s.regs.elapsed
  | 0x0B => s.regs.xid
  | 0x0C => (s.regs.retry ++ s.regs.tmo).setWidth 32
  | 0x0D => s.regs.peerIp
  | 0x0E => (s.regs.peerMac.extractLsb' 32 16).setWidth 32
  | 0x0F => s.regs.peerMac.extractLsb' 0 32
  | 0x10 => s.regs.peerSt.code.setWidth 32
  | 0x11 => s.regs.lastStatus.setWidth 32
  | 0x12 => s.regs.rxCount.setWidth 32
  | 0x13 => s.regs.dropCount.setWidth 32
  | 0x14 => s.regs.txCount.setWidth 32
  | 0x15 => s.regs.tcpSport ++ s.regs.tcpDport
  | 0x16 => s.regs.tcpSeq
  | 0x17 => s.regs.tcpAck
  | 0x18 => s.regs.tcpOffFlags.setWidth 32
  | 0x19 => s.regs.tcpCount.setWidth 32
  | 0x1A => s.tickPend.setWidth 32 ||| (if s.cmdValid then 0x100 else 0)
  | _ => 0

end Sys2Proof.Machine
end

