-- ==== Sys2Proof/Machine/Arp.lean ====
section
/-! DEFINITION. The ARP responder and single-peer resolver (42_arp.md). -/

namespace Sys2Proof.Machine

/-- R95: answer a request for the device's own address; its sender becomes the peer. -/
def arpRequestEnd (r : Regs) (ethSrc : Mac) (a : ArpAddrs) : OpEnd :=
  if r.myIp = 0 ∨ a.tpa ≠ r.myIp then .drop .arpNotForUs
  else
    .finish { r with peerIp := a.spa, peerMac := a.sha, peerSt := .resolved }
      (some (arpReplyFrame r ethSrc a.sha a.spa))

/-- R96: a reply completes the outstanding resolution of the single peer. -/
def arpReplyEnd (r : Regs) (a : ArpAddrs) : OpEnd :=
  if r.peerSt = .pending ∧ a.spa = r.peerIp then .finish { r with peerMac := a.sha, peerSt := .resolved } none
  else .drop .arpUnsolicited

/-- R97: any other operation is discarded without response. -/
def arpBadOperEnd : OpEnd := .drop .arpBadOper

/-- R93, R94, then the dispatch on `oper`. -/
def arpEnd (r : Regs) (ethSrc : Mac) (pkt : Bytes) : OpEnd :=
  match arpEntry pkt with
  | .error c => .drop c
  | .ok (oper, a) =>
    if oper = 1 then arpRequestEnd r ethSrc a
    else if oper = 2 then arpReplyEnd r a
    else arpBadOperEnd

/-- ARP_REQUEST (R95). -/
def execArpRequest (ethSrc : Mac) (a : ArpAddrs) (s : State) : Out State :=
  .next (s.complete .rx (arpRequestEnd s.regs ethSrc a))

/-- ARP_REPLY (R96). -/
def execArpReply (a : ArpAddrs) (s : State) : Out State := .next (s.complete .rx (arpReplyEnd s.regs a))

/-- ARP_BAD_OPER (R97). -/
def execArpBadOper (_oper : Half) (s : State) : Out State := .next (s.complete .rx arpBadOperEnd)

/-- ETH_ARP (41_ethernet_classifier.md R89): dispatch to the ARP responder. -/
def execEthArp (ethSrc : Mac) (pkt : Bytes) (s : State) : Out State :=
  .next (s.complete .rx (arpEnd s.regs ethSrc pkt))

end Sys2Proof.Machine
end

