-- ==== Sys2Proof/Machine/DhcpRx.lean ====
section
/-! DEFINITION. The DHCP client, receive side (46_dhcp_rx.md). -/

namespace Sys2Proof.Machine

/-- `record_lease(opts, y)` (R152), `lease` being option 51. The default T1 is LEASE >> 1 and the default T2 is
floor(7 × LEASE / 8), computed exactly (35-bit product; log 11). -/
def Regs.recordLease (r : Regs) (lease : Word) (o : DhcpOpts) (y : Ip) : Regs :=
  { r with
    myIp := y
    dhAddr := y
    lease := lease
    t1 := o.t1.getD (lease >>> 1)
    t2 := o.t2.getD (BitVec.ofNat 32 (7 * lease.toNat / 8))
    serverId := o.server.getD r.serverId
    elapsed := 0
    retry := 0
    tmo := BitVec.ofNat 16 Config.dhcpTimerLap
    dstate := .bound }

/-- `abandon_lease()` (R155): `XID` and `TMO` are kept and the peer slot is not touched. -/
def Regs.abandonLease (r : Regs) : Regs :=
  { r with
    myIp := 0
    dhAddr := 0
    serverId := 0
    lease := 0
    t1 := 0
    t2 := 0
    elapsed := 0
    retry := 0
    dstate := .init }

/-- R149: the offered address is requested, once; the frame is built after the register writes (R185). -/
def dhcpOfferEnd (p : Params) (r : Regs) (y : Ip) (o : DhcpOpts) : OpEnd :=
  match o.server with
  | none => .drop .dhcpMissingOption
  | some server =>
    if y = 0 then .drop .dhcpBadAddr
    else
      let r' := { r with dhAddr := y, serverId := server, elapsed := 0, retry := 0, dstate := .requesting }
      .finish r' (some (dhcpFrame p r' .reqSelect))

/-- R150. -/
def dhcpAckBindEnd (r : Regs) (y : Ip) (o : DhcpOpts) : OpEnd :=
  match o.lease with
  | none => .drop .dhcpMissingOption
  | some lease => if y = 0 then .drop .dhcpBadAddr else .finish (r.recordLease lease o y) none

/-- R151: only the same address extends the lease. -/
def dhcpAckExtendEnd (r : Regs) (y : Ip) (o : DhcpOpts) : OpEnd :=
  match o.lease with
  | none => .drop .dhcpMissingOption
  | some lease => if y ≠ r.dhAddr then .drop .dhcpAddrMismatch else .finish (r.recordLease lease o y) none

/-- R153. -/
def dhcpNakEnd (r : Regs) : OpEnd := .finish r.abandonLease none

/-- R154. -/
def dhcpOtherEnd : OpEnd := .drop .dhcpUnexpected

/-- The dispatch of R148, row by row of its table. -/
def dhcpDispatchEnd (p : Params) (r : Regs) (m : DhcpFields) : OpEnd :=
  match r.dstate with
  | .init => dhcpOtherEnd
  | .selecting => if m.msgType = 2 then dhcpOfferEnd p r m.yiaddr m.opts else dhcpOtherEnd
  | .requesting =>
    if m.msgType = 5 then dhcpAckBindEnd r m.yiaddr m.opts else if m.msgType = 6 then dhcpNakEnd r else dhcpOtherEnd
  | .bound => dhcpOtherEnd
  | .renewing =>
    if m.msgType = 5 then dhcpAckExtendEnd r m.yiaddr m.opts else if m.msgType = 6 then dhcpNakEnd r else dhcpOtherEnd
  | .rebinding =>
    if m.msgType = 5 then dhcpAckExtendEnd r m.yiaddr m.opts else if m.msgType = 6 then dhcpNakEnd r else dhcpOtherEnd
  | .initReboot => dhcpOtherEnd
  | .rebooting =>
    if m.msgType = 5 then dhcpAckBindEnd r m.yiaddr m.opts else if m.msgType = 6 then dhcpNakEnd r else dhcpOtherEnd

/-- R140 to R147, then R148. -/
def dhcpEnd (p : Params) (r : Regs) (d : Bytes) : OpEnd :=
  match dhcpEntry p r d with
  | .error c => .drop c
  | .ok m => dhcpDispatchEnd p r m

/-- DHCP_OFFER (R149). -/
def execDhcpOffer (yiaddr : Ip) (opts : DhcpOpts) (s : State) : Out State :=
  .next (s.complete .rx (dhcpOfferEnd s.params s.regs yiaddr opts))

/-- DHCP_ACK_BIND (R150). -/
def execDhcpAckBind (yiaddr : Ip) (opts : DhcpOpts) (s : State) : Out State :=
  .next (s.complete .rx (dhcpAckBindEnd s.regs yiaddr opts))

/-- DHCP_ACK_EXTEND (R151). -/
def execDhcpAckExtend (yiaddr : Ip) (opts : DhcpOpts) (s : State) : Out State :=
  .next (s.complete .rx (dhcpAckExtendEnd s.regs yiaddr opts))

/-- DHCP_NAK (R153). -/
def execDhcpNak (s : State) : Out State := .next (s.complete .rx (dhcpNakEnd s.regs))

/-- DHCP_OTHER (R154). -/
def execDhcpOther (_msgType : Byte) (s : State) : Out State := .next (s.complete .rx dhcpOtherEnd)

/-- UDP_DHCP (45_udp_tcp.md R128): the payload goes to the DHCP receive side. -/
def execUdpDhcp (msg : Bytes) (s : State) : Out State := .next (s.complete .rx (dhcpEnd s.params s.regs msg))

end Sys2Proof.Machine
end

