-- ==== Sys2Proof/Machine/Ipv4.lean ====
section
/-! DEFINITION. The IPv4 demultiplexer (43_ipv4_demux.md) with the ICMP echo responder (44_icmp.md), UDP validation and TCP
header inspection (45_udp_tcp.md) that it dispatches to. -/

namespace Sys2Proof.Machine

/-- R117: answer a ping, from `MY_IP`, to the request frame's Ethernet source. -/
def icmpEchoEnd (p : Params) (r : Regs) (ethSrc : Mac) (src : Ip) (code : Byte) (rest : Bytes) : OpEnd :=
  if r.myIp = 0 then .drop .icmpNoAddr
  else .finish r (some (ethFrame r ethSrc (ipDatagram p Config.protoIcmp r.myIp src (echoReply code rest))))

/-- R118. -/
def icmpOtherEnd : OpEnd := .drop .icmpNotEcho

/-- R115 to R119. -/
def icmpEnd (p : Params) (r : Regs) (ethSrc : Mac) (src : Ip) (msg : Bytes) : OpEnd :=
  match icmpEntry msg with
  | .error c => .drop c
  | .ok m => if m.type = Config.icmpEchoType then icmpEchoEnd p r ethSrc src m.code m.rest else icmpOtherEnd

/-- R129. -/
def udpOtherEnd : OpEnd := .drop .udpNoListener

/-- R125 to R129. -/
def udpEnd (p : Params) (r : Regs) (src dst : Ip) (payload : Bytes) : OpEnd :=
  match udpEntry src dst payload with
  | .error c => .drop c
  | .ok u =>
    if u.sport = Config.dhcpServerPort ∧ u.dport = Config.dhcpClientPort then dhcpEnd p r u.data else udpOtherEnd

/-- R131: latch the parsed header; nothing is sent. -/
def tcpInspectEnd (r : Regs) (h : TcpHeader) : OpEnd :=
  .finish
    { r with
      tcpSport := h.sport
      tcpDport := h.dport
      tcpSeq := h.seq
      tcpAck := h.ack
      tcpOffFlags := h.offFlags
      tcpCount := inc r.tcpCount } none

/-- R130, R131. -/
def tcpEnd (r : Regs) (segment : Bytes) : OpEnd :=
  match tcpEntry segment with
  | .error c => .drop c
  | .ok h => tcpInspectEnd r h

/-- R111. -/
def ipOtherEnd : OpEnd := .drop .ipUnknownProto

/-- R100 to R106, then the protocol dispatch of R107. -/
def ipv4End (p : Params) (r : Regs) (ethSrc : Mac) (dgram : Bytes) : OpEnd :=
  match ipEntry r dgram with
  | .error c => .drop c
  | .ok h =>
    if h.proto = Config.protoIcmp then icmpEnd p r ethSrc h.src h.payload
    else if h.proto = Config.protoUdp then udpEnd p r h.src h.dst h.payload
    else if h.proto = Config.protoTcp then tcpEnd r h.payload
    else ipOtherEnd

/-- ICMP_ECHO (R117). -/
def execIcmpEcho (ethSrc : Mac) (src : Ip) (code : Byte) (rest : Bytes) (s : State) : Out State :=
  .next (s.complete .rx (icmpEchoEnd s.params s.regs ethSrc src code rest))

/-- ICMP_OTHER (R118). -/
def execIcmpOther (_type : Byte) (s : State) : Out State := .next (s.complete .rx icmpOtherEnd)

/-- UDP_OTHER (R129). -/
def execUdpOther (_sport _dport : Half) (s : State) : Out State := .next (s.complete .rx udpOtherEnd)

/-- TCP_INSPECT (R131). -/
def execTcpInspect (h : TcpHeader) (s : State) : Out State := .next (s.complete .rx (tcpInspectEnd s.regs h))

/-- IP_ICMP (R108): dispatch to the ICMP echo responder; the destination address is not read there. -/
def execIpIcmp (ethSrc : Mac) (src _dst : Ip) (msg : Bytes) (s : State) : Out State :=
  .next (s.complete .rx (icmpEnd s.params s.regs ethSrc src msg))

/-- IP_UDP (R109): dispatch to UDP validation. -/
def execIpUdp (src dst : Ip) (payload : Bytes) (s : State) : Out State :=
  .next (s.complete .rx (udpEnd s.params s.regs src dst payload))

/-- IP_TCP (R110): dispatch to TCP header inspection. -/
def execIpTcp (segment : Bytes) (s : State) : Out State := .next (s.complete .rx (tcpEnd s.regs segment))

/-- IP_OTHER (R111). -/
def execIpOther (_proto : Byte) (s : State) : Out State := .next (s.complete .rx ipOtherEnd)

/-- ETH_IPV4 (41_ethernet_classifier.md R90): dispatch to the IPv4 demultiplexer. -/
def execEthIpv4 (ethSrc : Mac) (dgram : Bytes) (s : State) : Out State :=
  .next (s.complete .rx (ipv4End s.params s.regs ethSrc dgram))

end Sys2Proof.Machine
end

