-- ==== Sys2Proof/Machine/Ethernet.lean ====
section
/-! DEFINITION. The RX operation and the Ethernet frame classifier (41_ethernet_classifier.md). -/

namespace Sys2Proof.Machine

/-- R87: no complete Ethernet header. -/
def ethRuntEnd : OpEnd := .drop .ethRunt

/-- R87: longer than `MAX_FRAME_LEN`. -/
def ethOversizeEnd : OpEnd := .drop .ethOversize

/-- R88: 802.3 length framing. -/
def eth8023End : OpEnd := .drop .eth8023

/-- R91: discarded silently. -/
def ethOtherEnd : OpEnd := .drop .ethUnknownType

/-- `classify(Frame)` (R86 to R91): the whole tree of 30_encoding.md R72, level by level. -/
def classify (p : Params) (r : Regs) (f : Bytes) : OpEnd :=
  let et := be16 f 12
  if f.length < 14 then ethRuntEnd
  else if Config.maxFrameLen < f.length then ethOversizeEnd
  else if et.toNat ≤ Config.lengthLimit.toNat then eth8023End
  else if et = Config.etherTypeArp then arpEnd r (be48 f 6) (f.drop 14)
  else if et = Config.etherTypeIpv4 then ipv4End p r (be48 f 6) (f.drop 14)
  else ethOtherEnd

/-- The end of an RX operation on a frame: a flagged frame is not read and drops with 0x72 (60_exceptions.md R188). -/
def rxEnd (p : Params) (r : Regs) (f : RxFrame) : OpEnd :=
  if f.err then .drop .ifRxError else classify p r f.bytes

/-- RX (R86, R92) on the frame at the head of the FIFO; with no frame there the engine has nothing to take and stays idle
(60_exceptions.md R184; log 10). -/
def execRx (s : State) : Out State :=
  match s.rxFifo with
  | [] => .next s
  | f :: _ => .next (s.complete .rx (rxEnd s.params s.regs f))

/-- ETH_RUNT (R87). -/
def execEthRunt (_len : Nat) (s : State) : Out State := .next (s.complete .rx ethRuntEnd)

/-- ETH_OVERSIZE (R87). -/
def execEthOversize (_len : Nat) (s : State) : Out State := .next (s.complete .rx ethOversizeEnd)

/-- ETH_8023 (R88). -/
def execEth8023 (_len : Half) (s : State) : Out State := .next (s.complete .rx eth8023End)

/-- ETH_OTHER (R91). -/
def execEthOther (_etherType : Half) (s : State) : Out State := .next (s.complete .rx ethOtherEnd)

end Sys2Proof.Machine
end

