-- ==== Sys2Proof/Machine/HostOps.lean ====
section
/-! DEFINITION. Host commands and status reads (48_host_ops.md). -/

namespace Sys2Proof.Machine

/-- R174: nothing. -/
def cmdNopEnd (r : Regs) : OpEnd := .finish r none

/-- R175: without a DHCP client no effect, status 0x00. -/
def cmdDhcpRestartEnd (r : Regs) : OpEnd :=
  if !r.dhcpEn then .finish r none
  else .finish { r with tmo := BitVec.ofNat 16 Config.dhcpTimerLap }.abandonLease none

/-- R176: start the resolution of the single peer. -/
def cmdArpResolveEnd (r : Regs) (ip : Ip) : OpEnd :=
  let r' := { r with peerIp := ip, peerMac := 0, peerSt := .pending }
  .finish r' (some (arpRequestFrame r' ip))

/-- R177. -/
def cmdReservedEnd : OpEnd := .drop .cmdReserved

/-- The case on `CMD_OP` of R173. -/
def commandEnd (r : Regs) (op : BitVec 8) (arg : BitVec 32) : OpEnd :=
  match op.toNat with
  | 0 => cmdNopEnd r
  | 1 => cmdDhcpRestartEnd r
  | 2 => cmdArpResolveEnd r arg
  | _ => cmdReservedEnd

/-- CMD_NOP (R174). -/
def execCmdNop (s : State) : Out State := .next (s.complete .cmd (cmdNopEnd s.regs))

/-- CMD_DHCP_RESTART (R175). -/
def execCmdDhcpRestart (s : State) : Out State := .next (s.complete .cmd (cmdDhcpRestartEnd s.regs))

/-- CMD_ARP_RESOLVE (R176). -/
def execCmdArpResolve (ip : Ip) (s : State) : Out State := .next (s.complete .cmd (cmdArpResolveEnd s.regs ip))

/-- CMD_RESERVED (R177). -/
def execCmdReserved (_op : BitVec 8) (s : State) : Out State := .next (s.complete .cmd cmdReservedEnd)

/-- CMD (R173): the command in the command register. -/
def execCmd (s : State) : Out State := .next (s.complete .cmd (commandEnd s.regs s.cmdOp s.cmdArg))

/-- READ (R178): the host obtains the committed image of the address; no register, input or frame changes. -/
def execRead (addr : BitVec 8) (s : State) : Out State :=
  .next { s with hostReads := s.hostReads ++ [(addr, s.image addr)] }

end Sys2Proof.Machine
end

