-- ==== Sys2Proof/Machine/ResetOp.lean ====
section
/-! DEFINITION. The RESET operation (70_reset_and_hazards.md R200 to R202). -/

namespace Sys2Proof.Machine

/-- RESET (R200): sample the configuration inputs and set every register of the block. An operation in progress ends without
commit and without completion writes (R202); the receive FIFO and the transmit stream are not touched (R201). -/
def State.resetBlock (s : State) : State :=
  { s with
    regs := .atReset s.pins
    tickPend := 0
    cmdValid := false
    cmdOp := 0
    cmdArg := 0
    held := none }

/-- RESET. -/
def execReset (s : State) : Out State := .next s.resetBlock

end Sys2Proof.Machine
end

