-- ==== Sys2Proof/Machine/Tick.lean ====
section
/-! DEFINITION. The DHCP client, tick and transmit side (47_dhcp_timer_tx.md R160 to R167). -/

namespace Sys2Proof.Machine

/-- `backoff(t) = min(2 × t, DHCP_BACKOFF_CAP)` (R167). -/
def backoff (p : Params) (t : Half) : Half := BitVec.ofNat 16 (min (2 * t.toNat) p.backoffCap.toNat)

/-- R160: with `DHCP_EN` = 0 the tick has no other effect. -/
def tickStaticEnd (r : Regs) : OpEnd := .finish r none

/-- R161: start discovery with the drawn transaction id; the frame carries the new xid (R185). -/
def tickInitEnd (p : Params) (r : Regs) (x : Word) : OpEnd :=
  let r' := { r with xid := x, elapsed := 0, retry := 0, dstate := .selecting }
  .finish r' (some (dhcpFrame p r' .discover))

/-- R162: request the remembered address. -/
def tickInitRebootEnd (p : Params) (r : Regs) (x : Word) : OpEnd :=
  let r' := { r with xid := x, elapsed := 0, retry := 0, dstate := .rebooting }
  .finish r' (some (dhcpFrame p r' .reqReboot))

/-- The first line of R163 to R166: count the tick. -/
def Regs.age (r : Regs) : Regs := { r with elapsed := satInc r.elapsed }

/-- A response timeout that gives up: back off, then abandon (R163, R164). -/
def Regs.giveUp (p : Params) (r : Regs) : Regs := { r with tmo := backoff p r.tmo }.abandonLease

/-- R163: wait for an offer. -/
def tickSelectingEnd (p : Params) (r : Regs) : OpEnd :=
  if r.tmo.toNat ≤ r.age.elapsed.toNat then .finish (r.age.giveUp p) none else .finish r.age none

/-- R164: wait for an ACK, retransmitting a bounded number of times. -/
def tickRequestingEnd (p : Params) (r : Regs) : OpEnd :=
  if r.tmo.toNat ≤ r.age.elapsed.toNat then
    if r.retry.toNat < p.maxRetries.toNat then
      let r' := { r with retry := r.retry + 1, tmo := backoff p r.tmo, elapsed := 0 }
      .finish r' (some (dhcpFrame p r' .reqSelect))
    else .finish (r.age.giveUp p) none
  else .finish r.age none

/-- R165: wait `DHCP_TIMER_LAP` ticks for an ACK, without retransmission. -/
def tickRebootingEnd (r : Regs) : OpEnd :=
  if Config.dhcpTimerLap ≤ r.age.elapsed.toNat then .finish r.age.abandonLease none else .finish r.age none

/-- `tick_lease()` (R166): expiry, then T2, then T1; at most one applies. -/
def tickLeaseEnd (p : Params) (r : Regs) : OpEnd :=
  let a := r.age
  if a.lease.toNat ≤ a.elapsed.toNat then .finish a.abandonLease none
  else if a.t2.toNat ≤ a.elapsed.toNat ∧ a.dstate ≠ .rebinding then
    .finish { a with dstate := .rebinding } (some (dhcpFrame p { a with dstate := .rebinding } .reqRebind))
  else if a.t1.toNat ≤ a.elapsed.toNat ∧ a.dstate = .bound then
    .finish { a with dstate := .renewing } (some (dhcpFrame p { a with dstate := .renewing } .reqRenew))
  else .finish a none

/-- The INIT tick with its draw: the drawn value is used up whatever the transmit MAC answers (R76, D44). -/
def State.tickInit (s : State) : State := s.drawn.complete .tick (tickInitEnd s.params s.regs s.drawValue)

/-- The INIT_REBOOT tick with its draw. -/
def State.tickInitReboot (s : State) : State := s.drawn.complete .tick (tickInitRebootEnd s.params s.regs s.drawValue)

/-- TICK_STATIC (R160). -/
def execTickStatic (s : State) : Out State := .next (s.complete .tick (tickStaticEnd s.regs))

/-- TICK_INIT (R161). -/
def execTickInit (s : State) : Out State := .next s.tickInit

/-- TICK_SELECTING (R163). -/
def execTickSelecting (s : State) : Out State := .next (s.complete .tick (tickSelectingEnd s.params s.regs))

/-- TICK_REQUESTING (R164). -/
def execTickRequesting (s : State) : Out State := .next (s.complete .tick (tickRequestingEnd s.params s.regs))

/-- TICK_BOUND (R166). -/
def execTickBound (s : State) : Out State := .next (s.complete .tick (tickLeaseEnd s.params s.regs))

/-- TICK_RENEWING (R166). -/
def execTickRenewing (s : State) : Out State := .next (s.complete .tick (tickLeaseEnd s.params s.regs))

/-- TICK_REBINDING (R166). -/
def execTickRebinding (s : State) : Out State := .next (s.complete .tick (tickLeaseEnd s.params s.regs))

/-- TICK_INIT_REBOOT (R162). -/
def execTickInitReboot (s : State) : Out State := .next s.tickInitReboot

/-- TICK_REBOOTING (R165). -/
def execTickRebooting (s : State) : Out State := .next (s.complete .tick (tickRebootingEnd s.regs))

/-- TICK (R160): dispatch on `DHCP_EN` and `DSTATE`. -/
def execTick (s : State) : Out State :=
  if !s.regs.dhcpEn then .next (s.complete .tick (tickStaticEnd s.regs))
  else
    match s.regs.dstate with
    | .init => .next s.tickInit
    | .initReboot => .next s.tickInitReboot
    | .selecting => .next (s.complete .tick (tickSelectingEnd s.params s.regs))
    | .requesting => .next (s.complete .tick (tickRequestingEnd s.params s.regs))
    | .rebooting => .next (s.complete .tick (tickRebootingEnd s.regs))
    | .bound => .next (s.complete .tick (tickLeaseEnd s.params s.regs))
    | .renewing => .next (s.complete .tick (tickLeaseEnd s.params s.regs))
    | .rebinding => .next (s.complete .tick (tickLeaseEnd s.params s.regs))

end Sys2Proof.Machine
end

