-- ==== Sys2Proof/Machine/Dispatch.lean ====
section
/-! DEFINITION. The dispatch: one arm per constructor of Instr. -/

namespace Sys2Proof.Machine

/-- The meaning of each row of the operation map (30_encoding.md R70 to R72). -/
def exec (i : Instr) (s : State) : Host.Outcome State Fault Refusal :=
  match i with
  | .reset => Sys2Proof.Machine.execReset s
  | .cmd => Sys2Proof.Machine.execCmd s
  | .tick => Sys2Proof.Machine.execTick s
  | .rx => Sys2Proof.Machine.execRx s
  | .read addr => Sys2Proof.Machine.execRead addr s
  | .cmdNop => Sys2Proof.Machine.execCmdNop s
  | .cmdDhcpRestart => Sys2Proof.Machine.execCmdDhcpRestart s
  | .cmdArpResolve ip => Sys2Proof.Machine.execCmdArpResolve ip s
  | .cmdReserved op => Sys2Proof.Machine.execCmdReserved op s
  | .tickStatic => Sys2Proof.Machine.execTickStatic s
  | .tickInit => Sys2Proof.Machine.execTickInit s
  | .tickSelecting => Sys2Proof.Machine.execTickSelecting s
  | .tickRequesting => Sys2Proof.Machine.execTickRequesting s
  | .tickBound => Sys2Proof.Machine.execTickBound s
  | .tickRenewing => Sys2Proof.Machine.execTickRenewing s
  | .tickRebinding => Sys2Proof.Machine.execTickRebinding s
  | .tickInitReboot => Sys2Proof.Machine.execTickInitReboot s
  | .tickRebooting => Sys2Proof.Machine.execTickRebooting s
  | .ethRunt len => Sys2Proof.Machine.execEthRunt len s
  | .ethOversize len => Sys2Proof.Machine.execEthOversize len s
  | .eth8023 len => Sys2Proof.Machine.execEth8023 len s
  | .ethArp ethSrc pkt => Sys2Proof.Machine.execEthArp ethSrc pkt s
  | .ethIpv4 ethSrc dgram => Sys2Proof.Machine.execEthIpv4 ethSrc dgram s
  | .ethOther etherType => Sys2Proof.Machine.execEthOther etherType s
  | .arpRequest ethSrc a => Sys2Proof.Machine.execArpRequest ethSrc a s
  | .arpReply a => Sys2Proof.Machine.execArpReply a s
  | .arpBadOper oper => Sys2Proof.Machine.execArpBadOper oper s
  | .ipIcmp ethSrc src dst msg => Sys2Proof.Machine.execIpIcmp ethSrc src dst msg s
  | .ipUdp src dst payload => Sys2Proof.Machine.execIpUdp src dst payload s
  | .ipTcp segment => Sys2Proof.Machine.execIpTcp segment s
  | .ipOther proto => Sys2Proof.Machine.execIpOther proto s
  | .icmpEcho ethSrc src code rest => Sys2Proof.Machine.execIcmpEcho ethSrc src code rest s
  | .icmpOther type => Sys2Proof.Machine.execIcmpOther type s
  | .udpDhcp msg => Sys2Proof.Machine.execUdpDhcp msg s
  | .udpOther sport dport => Sys2Proof.Machine.execUdpOther sport dport s
  | .tcpInspect h => Sys2Proof.Machine.execTcpInspect h s
  | .dhcpOffer yiaddr opts => Sys2Proof.Machine.execDhcpOffer yiaddr opts s
  | .dhcpAckBind yiaddr opts => Sys2Proof.Machine.execDhcpAckBind yiaddr opts s
  | .dhcpAckExtend yiaddr opts => Sys2Proof.Machine.execDhcpAckExtend yiaddr opts s
  | .dhcpNak => Sys2Proof.Machine.execDhcpNak s
  | .dhcpOther msgType => Sys2Proof.Machine.execDhcpOther msgType s

end Sys2Proof.Machine
end

