-- ==== Sys2Proof/Machine/Environment.lean ====
section
/-! DEFINITION. The moves of the agents outside the engine (00_scope.md R3): the tick source, the receive MAC, the host, the
platform, the random source and the transmit MAC. Each is one step of its own. -/

namespace Sys2Proof.Machine

/-- A tick pulse: `TICK_PEND <- sat_inc_8(TICK_PEND)` at the moment it arrives (10_state.md R36); lost while reset is asserted,
since `TICK_PEND` is held at 0 (70_reset_and_hazards.md R205). -/
def State.tickPulse (s : State) : State := if s.resetIn then s else { s with tickPend := satInc s.tickPend }

/-- The receive MAC appends an arriving frame at the tail, or drops it without any signal when the FIFO holds
`RX_FIFO_CAPACITY` frames (20_memory.md R42). -/
def State.frameArrives (s : State) (f : RxFrame) : State :=
  if s.rxFifo.length < s.params.rxFifoCapacity then { s with rxFifo := s.rxFifo ++ [f] } else s

/-- The host's command write: taken while `CMD_VALID` = 0, ignored while it is 1 (R37, 48_host_ops.md R179). While reset is
asserted RESET holds `CMD_VALID` at 0 and the write is lost (log 13). -/
def State.commandWrite (s : State) (op : BitVec 8) (arg : BitVec 32) : State :=
  if s.resetIn || s.cmdValid then s else { s with cmdValid := true, cmdOp := op, cmdArg := arg }

/-- The receive MAC changes the head frame before its release: an environment with no meaning, refused (R53, R208); with no
frame in the FIFO there is no head frame to change. -/
def State.headChanged (s : State) : Out State :=
  match s.rxFifo with
  | [] => .next s
  | _ :: _ => .refused .headFrameChanged

end Sys2Proof.Machine
end

