-- ==== Sys2Proof/Machine/Engine.lean ====
section
/-! DEFINITION. The engine's turn: the arbiter's choice (60_exceptions.md R184) gives the bytes to decode, and the decoded
instruction is executed; an operation in progress is resumed (R196); with nothing pending the engine stays idle (R198). -/

namespace Sys2Proof.Machine

/-- A Boolean as the byte of the tick dispatch. -/
def flagByte (b : Bool) : Byte := if b then 1 else 0

/-- The highest-priority pending input and the bytes it gives the decoder (R183, R184): a command with its argument, a tick
with `DHCP_EN` and `DSTATE`, the head frame, or the bare RX operation where the frame's bytes are not to be read (R188). -/
def State.fetch (s : State) : Option (Port × Bytes) :=
  if s.resetIn then some (.operation, [1])
  else if s.cmdValid then some (.command, s.cmdOp :: bytes32 s.cmdArg)
  else if s.tickPend ≠ 0 then some (.tick, [flagByte s.regs.dhcpEn, s.regs.dstate.code.setWidth 8])
  else
    match s.rxFifo with
    | [] => none
    | f :: _ => if f.err then some (.operation, [4]) else some (.frame, f.bytes)

/-- Start the operation of the pending input, or stay idle (R184). -/
def startOperation (s : State) : Out State :=
  match s.fetch with
  | none => .next s
  | some (port, bs) =>
    match decode s.params s.regs port bs with
    | .ok i => exec i s
    | .error e => .refused (.undecodable e)

/-- The engine's turn. An operation in progress goes on before another starts (R190), and only reset acts at once (R202). -/
def engineStep (s : State) : Out State :=
  match s.held with
  | some h => if s.resetIn then startOperation s else .next (s.resume h)
  | none => startOperation s

/-- A move of the environment. Asserting reset acts at once: the RESET operation runs in the same step (R184, R202; log 2). -/
def environmentStep (e : EnvEvent) (s : State) : Out State :=
  match e with
  | .engine => engineStep s
  | .tickPulse => .next s.tickPulse
  | .frameArrives f => .next (s.frameArrives f)
  | .commandWrite op arg => .next (s.commandWrite op arg)
  | .statusRead addr => exec (.read addr) s
  | .assertReset => exec .reset { s with resetIn := true }
  | .deassertReset => .next { s with resetIn := false }
  | .setPins c => .next { s with pins := c }
  | .draw v => .next { s with draws := s.draws ++ [v] }
  | .txAnswer a => .next { s with txAnswers := s.txAnswers ++ [a] }
  | .headChanged _ => s.headChanged

/-- Place the bytes of one instruction where the engine fetches next, and nothing ahead of them: the command register, a
pending tick with the dispatch values, or the head of the receive FIFO. -/
def State.place (s : State) (port : Port) (bs : Bytes) : State :=
  let q := { s with resetIn := false, held := none, env := [], cmdValid := false, tickPend := 0 }
  match port with
  | .operation => q
  | .command => { q with cmdValid := true, cmdOp := byteAt bs 0, cmdArg := be32 bs 1 }
  | .tick =>
    { q with
      tickPend := 1
      regs := { s.regs with
        dhcpEn := byteAt bs 0 == 1
        dstate := DState.ofCode ((byteAt bs 1).extractLsb' 0 3) } }
  | .frame => { q with rxFifo := { bytes := bs, err := false } :: s.rxFifo }
  | .read => { q with env := [.statusRead (byteAt bs 0)] }

end Sys2Proof.Machine
end

