-- ==== Sys2Proof/Machine/Step.lean ====
section
/-! DEFINITION. One step of the machine: the next scripted move of an agent, or the engine's turn when none is left. -/

namespace Sys2Proof.Machine

/-- One step (00_scope.md R3, R4; 70_reset_and_hazards.md R212): an operation is one step, a move of the environment is one
step, and the script in `State.env` says whose turn it is. -/
def step (s : State) : Host.Outcome State Fault Refusal :=
  match s.env with
  | [] => engineStep s
  | e :: rest => environmentStep e { s with env := rest }

/-- `s` with an opcode-table word as the very next instruction (log 9). -/
def State.withFetchWord (s : State) (nbits w : Nat) : State :=
  s.place (tableWord nbits w).1 (tableWord nbits w).2

end Sys2Proof.Machine
end

