-- ==== Sys2Proof/Safety.lean ====
section
/-! DEFINITION. The terms the statements use: how the transmit MAC is about to answer, what an operation leaves when it ends
(written out from 60_exceptions.md R185 to R187, not through the machine's own operations), which rows emit what, and the
invariants of the machine. -/

namespace Sys2Proof.Machine

/-- The transmit MAC accepts the next frame handed to it (R196). -/
def State.macAccepts (s : State) : Prop := s.txAnswers = [] ∨ ∃ rest, s.txAnswers = .accept :: rest

/-- The transmit MAC answers the next frame with an error (R187). -/
def State.macRefuses (s : State) : Prop := ∃ rest, s.txAnswers = .error :: rest

/-- The transmit MAC has no answer yet (R196). -/
def State.macWaits (s : State) : Prop := ∃ rest, s.txAnswers = .wait :: rest

/-- After an RX operation that drops with `code`: only R186's completion writes. -/
def State.rxDropped (s : State) (code : BitVec 8) : State :=
  { s with
    rxFifo := s.rxFifo.tail
    regs := { s.regs with
      rxCount := s.regs.rxCount + 1, dropCount := s.regs.dropCount + 1, lastStatus := code } }

/-- After an RX operation that ends normally with the register copy `r` and no frame (R185, R186). -/
def State.rxQuiet (s : State) (r : Regs) : State :=
  { s with
    rxFifo := s.rxFifo.tail
    regs := { r with rxCount := r.rxCount + 1, lastStatus := 0 } }

/-- After an RX operation whose frame `t` the transmit MAC accepted (R185, R186). -/
def State.rxSent (s : State) (r : Regs) (t : Bytes) : State :=
  { s with
    txAnswers := s.txAnswers.tail
    rxFifo := s.rxFifo.tail
    txStream := s.txStream ++ [t]
    regs := { r with txCount := r.txCount + 1, rxCount := r.rxCount + 1, lastStatus := 0 } }

/-- After a CMD operation with the register copy `r` and status `code`, without a frame (R173, R186). -/
def State.cmdDone (s : State) (r : Regs) (code : BitVec 8) : State :=
  { s with cmdValid := false, regs := { r with lastStatus := code } }

/-- After a CMD operation whose frame `t` the transmit MAC accepted (R185, R186). -/
def State.cmdSent (s : State) (r : Regs) (t : Bytes) : State :=
  { s with
    txAnswers := s.txAnswers.tail
    cmdValid := false
    txStream := s.txStream ++ [t]
    regs := { r with txCount := r.txCount + 1, lastStatus := 0 } }

/-- After a TICK operation with the register copy `r` and no frame (R160, R186). -/
def State.tickDone (s : State) (r : Regs) : State :=
  { s with tickPend := s.tickPend - 1, regs := { r with lastStatus := 0 } }

/-- After a TICK operation whose frame `t` the transmit MAC accepted (R185, R186). -/
def State.tickSent (s : State) (r : Regs) (t : Bytes) : State :=
  { s with
    txAnswers := s.txAnswers.tail
    tickPend := s.tickPend - 1
    txStream := s.txStream ++ [t]
    regs := { r with txCount := r.txCount + 1, lastStatus := 0 } }

/-- The registers after `abandon_lease()` (R155), written out. -/
def Regs.abandoned (r : Regs) : Regs :=
  { r with myIp := 0, dhAddr := 0, serverId := 0, lease := 0, t1 := 0, t2 := 0, elapsed := 0, retry := 0, dstate := .init }

/-! ## Emissions -/

/-- A draw (R8, R76; log 4): `x` is the value and `q` the state after it, the first scripted answer or the free value. -/
def State.DrawGives (s : State) (x : Word) (q : State) : Prop :=
  (∃ rest, s.draws = x :: rest ∧ q = { s with draws := rest }) ∨
  (s.draws = [] ∧ x = Config.freeDraw s.drawIndex ∧ q = { s with drawIndex := s.drawIndex + 1 })

/-- The rows that call `Emit`, each with its conditions: `s.Emits i q k r f` says that instruction `i` in state `s`, an operation
of kind `k`, calls `Emit(f)` with the register copy `r` (R185); `q` is `s` after the random source's draw, if the row makes one. -/
inductive State.Emits (s : State) : Instr → State → OpKind → Regs → Bytes → Prop where
  /-- R176 -/
  | cmdArpResolve (ip : Ip) (r : Regs) : r = { s.regs with peerIp := ip, peerMac := 0, peerSt := .pending } →
      Emits s (.cmdArpResolve ip) s .cmd r (arpRequestFrame r ip)
  /-- R161 -/
  | tickInit (x : Word) (q : State) (r : Regs) : s.DrawGives x q →
      r = { s.regs with xid := x, elapsed := 0, retry := 0, dstate := .selecting } →
      Emits s .tickInit q .tick r (dhcpFrame s.params r .discover)
  /-- R162 -/
  | tickInitReboot (x : Word) (q : State) (r : Regs) : s.DrawGives x q →
      r = { s.regs with xid := x, elapsed := 0, retry := 0, dstate := .rebooting } →
      Emits s .tickInitReboot q .tick r (dhcpFrame s.params r .reqReboot)
  /-- R164: the response timeout with a retry left -/
  | tickRequesting (r : Regs) : s.regs.tmo.toNat ≤ min (s.regs.elapsed.toNat + 1) 0xFFFFFFFF →
      s.regs.retry.toNat < s.params.maxRetries.toNat →
      r = { s.regs with retry := s.regs.retry + 1, tmo := backoff s.params s.regs.tmo, elapsed := 0 } →
      Emits s .tickRequesting s .tick r (dhcpFrame s.params r .reqSelect)
  /-- R166: T2 reached -/
  | tickRebind (i : Instr) (e : Word) (r : Regs) : i = .tickBound ∨ i = .tickRenewing ∨ i = .tickRebinding →
      e.toNat = min (s.regs.elapsed.toNat + 1) 0xFFFFFFFF → e.toNat < s.regs.lease.toNat → s.regs.t2.toNat ≤ e.toNat →
      s.regs.dstate ≠ .rebinding → r = { s.regs with elapsed := e, dstate := .rebinding } →
      Emits s i s .tick r (dhcpFrame s.params r .reqRebind)
  /-- R166: T1 reached, T2 not -/
  | tickRenew (i : Instr) (e : Word) (r : Regs) : i = .tickBound ∨ i = .tickRenewing ∨ i = .tickRebinding →
      e.toNat = min (s.regs.elapsed.toNat + 1) 0xFFFFFFFF → e.toNat < s.regs.lease.toNat → e.toNat < s.regs.t2.toNat →
      s.regs.t1.toNat ≤ e.toNat → s.regs.dstate = .bound → r = { s.regs with elapsed := e, dstate := .renewing } →
      Emits s i s .tick r (dhcpFrame s.params r .reqRenew)
  /-- R95 -/
  | arpRequest (ethSrc : Mac) (a : ArpAddrs) (r : Regs) : s.regs.myIp ≠ 0 → a.tpa = s.regs.myIp →
      r = { s.regs with peerIp := a.spa, peerMac := a.sha, peerSt := .resolved } →
      Emits s (.arpRequest ethSrc a) s .rx r (arpReplyFrame s.regs ethSrc a.sha a.spa)
  /-- R117 -/
  | icmpEcho (ethSrc : Mac) (src : Ip) (code : Byte) (rest : Bytes) : s.regs.myIp ≠ 0 →
      Emits s (.icmpEcho ethSrc src code rest) s .rx s.regs
        (ethFrame s.regs ethSrc (ipDatagram s.params Config.protoIcmp s.regs.myIp src (echoReply code rest)))
  /-- R149 -/
  | dhcpOffer (y : Ip) (o : DhcpOpts) (server : Ip) (r : Regs) : o.server = some server → y ≠ 0 →
      r = { s.regs with dhAddr := y, serverId := server, elapsed := 0, retry := 0, dstate := .requesting } →
      Emits s (.dhcpOffer y o) s .rx r (dhcpFrame s.params r .reqSelect)

/-! ## Invariants -/

/-- What holds of the committed registers and of the copy of an operation in progress. -/
def State.everyRegs (s : State) (P : Regs → Prop) : Prop := P s.regs ∧ ∀ h, s.held = some h → P h.regs

/-- The timer registers: `TMO` between the smaller and the larger of `DHCP_TIMER_LAP` and `DHCP_BACKOFF_CAP` (R25, R167; log 12),
`RETRY` at most `DHCP_MAX_RETRIES` (R26). -/
def Regs.timersBounded (p : Params) (r : Regs) : Prop :=
  min Config.dhcpTimerLap p.backoffCap.toNat ≤ r.tmo.toNat ∧
  r.tmo.toNat ≤ max Config.dhcpTimerLap p.backoffCap.toNat ∧
  r.retry.toNat ≤ p.maxRetries.toNat

/-- The states in which the client holds a lease (R19). -/
def DState.leased (d : DState) : Bool := d == .bound || d == .renewing || d == .rebinding

/-- The address registers (R14, R16, R19, R171): a static block never leaves INIT; a DHCP client has no address before an ACK and
after an abandonment, and while it holds a lease `MY_IP` is the lease's address, not 0. -/
def Regs.addressesAgree (r : Regs) : Prop :=
  (r.dhcpEn = false → r.dstate = .init) ∧
  (r.dhcpEn = true → r.dstate.leased = false → r.myIp = 0) ∧
  (r.dstate.leased = true → r.myIp = r.dhAddr ∧ r.myIp ≠ 0)

/-- The peer slot (R27 to R29, R176): an EMPTY slot holds zeros, a PENDING one no MAC address. -/
def Regs.peerSlotSound (r : Regs) : Prop :=
  (r.peerSt = .empty → r.peerIp = 0 ∧ r.peerMac = 0) ∧ (r.peerSt = .pending → r.peerMac = 0)

/-- `LAST_STATUS` holds a code of R180's table. -/
def Regs.statusInTable (r : Regs) : Prop := ∃ c : StatusCode, r.lastStatus = c.code

/-- The event inputs: the FIFO within its capacity (R39, R42); while reset is asserted nothing is pending and nothing in
progress (R200, R202, R205); an operation in progress still has the input that started it (R37, R42, R186), and the frame it
holds is between an ARP frame and `MAX_FRAME_LEN` long (R98, R112, R172). -/
def State.inputsSound (s : State) : Prop :=
  s.rxFifo.length ≤ s.params.rxFifoCapacity ∧
  (s.resetIn = true → s.tickPend = 0 ∧ s.cmdValid = false ∧ s.held = none) ∧
  ∀ h, s.held = some h →
    (h.kind = .rx → s.rxFifo ≠ []) ∧ (h.kind = .tick → s.tickPend ≠ 0) ∧ (h.kind = .cmd → s.cmdValid = true) ∧
    42 ≤ h.frame.length ∧ h.frame.length ≤ Config.maxFrameLen

end Sys2Proof.Machine
end

