-- ==== Sys2Proof/Certificates/Slice0/Obligations.lean ====
section
/-! DEFINITION. The statements for the provers. Each docstring names the rules it rests on; OBLIGATIONS.json says which of them
it states whole. -/

open Sys2Proof Sys2Proof.Machine

/-! ## Reset, reads, the environment -/

/-- R200, R201: RESET gives every register of the block the value of R200's table and touches neither the receive FIFO nor the
transmit stream; an operation in progress is gone. -/
def Obligations.ResetSetsEveryRegister : Prop :=
  ∀ s : State, exec .reset s = .next
    { s with
      regs :=
        { myMac := s.pins.cfgMac
          myIp := if s.pins.cfgDhcpEn = true then 0 else s.pins.cfgIp
          netmask := s.pins.cfgNetmask
          dhcpEn := s.pins.cfgDhcpEn
          dstate := if s.pins.cfgDhcpEn = true ∧ s.pins.cfgHasLease = true then .initReboot else .init
          xid := 0
          dhAddr := if s.pins.cfgDhcpEn = true ∧ s.pins.cfgHasLease = true then s.pins.cfgIp else 0
          serverId := if s.pins.cfgDhcpEn = true ∧ s.pins.cfgHasLease = true then s.pins.cfgLeaseServer else 0
          lease := 0, t1 := 0, t2 := 0, elapsed := 0, tmo := 7, retry := 0
          peerIp := 0, peerMac := 0, peerSt := .empty, lastStatus := 0
          rxCount := 0, dropCount := 0, txCount := 0
          tcpSport := 0, tcpDport := 0, tcpSeq := 0, tcpAck := 0, tcpOffFlags := 0, tcpCount := 0 }
      tickPend := 0, cmdValid := false, cmdOp := 0, cmdArg := 0, held := none }

/-- The state right after reset is what RESET leaves with the model's configuration inputs, the static configuration S, which is
the MODEL'S CHOICE (log 3), with nothing waiting in the FIFO and nothing sent. -/
def Obligations.ResetStateIsWhatResetLeaves : Prop :=
  exec .reset State.reset = .next State.reset ∧
  State.reset.regs.myMac = 0x020000000002 ∧ State.reset.regs.myIp = 0x0A000002 ∧
  State.reset.regs.netmask = 0xFFFFFF00 ∧ State.reset.regs.dhcpEn = false ∧ State.reset.regs.dstate = .init ∧
  State.reset.regs.tmo = 7 ∧ State.reset.rxFifo = [] ∧ State.reset.txStream = [] ∧ State.reset.resetIn = false

/-- R202: asserting reset ends an operation in progress at once, without commit and without completion writes: the RX frame
stays at the head of the FIFO, nothing is sent, and every register, the command register included, is at its reset value; while
reset stays asserted the engine's turn is RESET again. That both happen in one step is the model's choice, log 2. -/
def Obligations.AssertedResetAbortsTheOperation : Prop :=
  (∀ (s : State) (rest : List EnvEvent), s.env = .assertReset :: rest →
    step s = .next
      { s with
        env := rest, resetIn := true, held := none, regs := Regs.atReset s.pins
        tickPend := 0, cmdValid := false, cmdOp := 0, cmdArg := 0 }) ∧
  (∀ s : State, s.env = [] → s.resetIn = true → step s = exec .reset s)

/-- R38, R46, R48, R178: a status read gives the host the image of the address and changes nothing else; so does the host's move
`statusRead`, in one step, whatever operation is in progress and whether or not reset is asserted. The images are those of the
status read map, address by address; bits not named and the addresses 0x1B to 0xFF read 0. The transcript `hostReads` of what
the host obtained is the model's choice, log 7. -/
def Obligations.StatusReadGivesTheMapWithoutSideEffect : Prop :=
  ∀ s : State,
    (∀ a : BitVec 8, exec (.read a) s = .next { s with hostReads := s.hostReads ++ [(a, s.image a)] }) ∧
    (∀ (a : BitVec 8) (rest : List EnvEvent), s.env = .statusRead a :: rest →
      step s = exec (.read a) { s with env := rest } ∧
      step s = .next { s with env := rest, hostReads := s.hostReads ++ [(a, s.image a)] }) ∧
    (s.image 0x00).toNat = s.regs.dstate.code.toNat + 256 * s.regs.dhcpEn.toNat ∧
    s.image 0x01 = s.regs.myIp ∧
    s.image 0x02 = s.regs.netmask ∧
    (s.image 0x03).toNat = s.regs.myMac.toNat / 2 ^ 32 ∧
    (s.image 0x04).toNat = s.regs.myMac.toNat % 2 ^ 32 ∧
    s.image 0x05 = s.regs.dhAddr ∧
    s.image 0x06 = s.regs.serverId ∧
    s.image 0x07 = s.regs.lease ∧
    s.image 0x08 = s.regs.t1 ∧
    s.image 0x09 = s.regs.t2 ∧
    s.image 0x0A = s.regs.elapsed ∧
    s.image 0x0B = s.regs.xid ∧
    (s.image 0x0C).toNat = s.regs.tmo.toNat + 65536 * s.regs.retry.toNat ∧
    s.image 0x0D = s.regs.peerIp ∧
    (s.image 0x0E).toNat = s.regs.peerMac.toNat / 2 ^ 32 ∧
    (s.image 0x0F).toNat = s.regs.peerMac.toNat % 2 ^ 32 ∧
    (s.image 0x10).toNat = s.regs.peerSt.code.toNat ∧
    (s.image 0x11).toNat = s.regs.lastStatus.toNat ∧
    (s.image 0x12).toNat = s.regs.rxCount.toNat ∧
    (s.image 0x13).toNat = s.regs.dropCount.toNat ∧
    (s.image 0x14).toNat = s.regs.txCount.toNat ∧
    (s.image 0x15).toNat = s.regs.tcpDport.toNat + 65536 * s.regs.tcpSport.toNat ∧
    s.image 0x16 = s.regs.tcpSeq ∧
    s.image 0x17 = s.regs.tcpAck ∧
    (s.image 0x18).toNat = s.regs.tcpOffFlags.toNat ∧
    (s.image 0x19).toNat = s.regs.tcpCount.toNat ∧
    (s.image 0x1A).toNat = s.tickPend.toNat + 256 * s.cmdValid.toNat ∧
    ∀ a : BitVec 8, 0x1B ≤ a.toNat → s.image a = 0

/-- R8, R36, R37, R42, R76, R178, R179, R196, R200, R204, R205: the moves of the agents outside the engine, one step each. A pulse
counts up to 255 and is lost beyond, and while reset is asserted; a command write is taken only while `CMD_VALID` = 0 (that it is
lost while reset is asserted is the model's choice, log 13, and not stated here); a frame joins the tail of the FIFO only while it
has room; the configuration inputs and the reset input change their levels only; the random source's and the transmit MAC's
answers join their queues (the model's form, logs 4 and 5). The script itself is the model's form, log 1. -/
def Obligations.InputsArriveAsStated : Prop :=
  ∀ (s : State) (rest : List EnvEvent),
    (s.env = .tickPulse :: rest → s.resetIn = false →
      ∃ t, step s = .next t ∧ t = { s with env := rest, tickPend := t.tickPend } ∧
        t.tickPend.toNat = min (s.tickPend.toNat + 1) 255) ∧
    (s.env = .tickPulse :: rest → s.resetIn = true → step s = .next { s with env := rest }) ∧
    (∀ op arg, s.env = .commandWrite op arg :: rest → s.resetIn = false → s.cmdValid = false →
      step s = .next { s with env := rest, cmdValid := true, cmdOp := op, cmdArg := arg }) ∧
    (∀ op arg, s.env = .commandWrite op arg :: rest → s.cmdValid = true → step s = .next { s with env := rest }) ∧
    (∀ f, s.env = .frameArrives f :: rest → s.rxFifo.length < s.params.rxFifoCapacity →
      step s = .next { s with env := rest, rxFifo := s.rxFifo ++ [f] }) ∧
    (∀ f, s.env = .frameArrives f :: rest → s.params.rxFifoCapacity ≤ s.rxFifo.length →
      step s = .next { s with env := rest }) ∧
    (s.env = .deassertReset :: rest → step s = .next { s with env := rest, resetIn := false }) ∧
    (∀ c, s.env = .setPins c :: rest → step s = .next { s with env := rest, pins := c }) ∧
    (∀ v, s.env = .draw v :: rest → step s = .next { s with env := rest, draws := s.draws ++ [v] }) ∧
    (∀ a, s.env = .txAnswer a :: rest → step s = .next { s with env := rest, txAnswers := s.txAnswers ++ [a] })

/-! ## The arbiter, the step, no fatal state -/

/-- A step runs the decoded instruction: on the engine's turn with no operation in progress, whether the script is empty or says
`engine`, the step is `exec` of the instruction that the pending input's bytes decode to (the script is the model's form, log 1). -/
def Obligations.StepRunsTheDecodedInstruction : Prop :=
  ∀ (s q : State) (port : Port) (bs : Bytes) (i : Instr),
    (s.env = [] ∧ q = s) ∨ (∃ rest, s.env = .engine :: rest ∧ q = { s with env := rest }) →
    q.held = none ∨ q.resetIn = true → q.fetch = some (port, bs) → decode q.params q.regs port bs = .ok i →
    step s = exec i q

/-- R184: the arbiter's fixed priority RESET, CMD, TICK, RX, else idle, with the row each pending input runs. -/
def Obligations.ArbiterPriority : Prop :=
  ∀ s : State, s.env = [] → s.held = none →
    (s.resetIn = true → step s = exec .reset s) ∧
    (s.resetIn = false → s.cmdValid = true → step s = exec (decodeCommand s.cmdOp s.cmdArg) s) ∧
    (s.resetIn = false → s.cmdValid = false → s.tickPend ≠ 0 → step s = exec (decodeTick s.regs.dhcpEn s.regs.dstate) s) ∧
    (∀ f rest, s.resetIn = false → s.cmdValid = false → s.tickPend = 0 → s.rxFifo = f :: rest → f.err = false →
      step s = exec (decodeFrame s.params s.regs f.bytes) s) ∧
    (∀ f rest, s.resetIn = false → s.cmdValid = false → s.tickPend = 0 → s.rxFifo = f :: rest → f.err = true →
      step s = exec .rx s) ∧
    (s.resetIn = false → s.cmdValid = false → s.tickPend = 0 → s.rxFifo = [] → step s = .next s)

/-- R199: no frame, command, tick or interface error stops the machine. The one refused step is the environment's own fault of
R208, a change of a frame the engine has not released; refusing it is the model's choice, one of the two treatments I11 allows
(log 14). -/
def Obligations.NoFatalState : Prop :=
  ∀ s : State, (∃ t, step s = .next t) ∨
    (∃ bs rest, s.env = .headChanged bs :: rest ∧ s.rxFifo ≠ [] ∧ step s = .refused .headFrameChanged)

/-! ## Host commands (48_host_ops.md) -/

/-- R174, R177: CMD_NOP changes `LAST_STATUS` (0x00) and `CMD_VALID` (0) and nothing else; a reserved command the same with
`LAST_STATUS` 0x70. Nothing is emitted. -/
def Obligations.CmdNopAndReservedOnlyComplete : Prop :=
  ∀ s : State, exec .cmdNop s = .next (s.cmdDone s.regs 0x00) ∧
    ∀ op : BitVec 8, exec (.cmdReserved op) s = .next (s.cmdDone s.regs 0x70)

/-- R175, R155: CMD_DHCP_RESTART abandons the exchange or lease and sets `TMO` to 7; without a DHCP client it has no effect. -/
def Obligations.CmdDhcpRestartAbandons : Prop :=
  ∀ s : State,
    (s.regs.dhcpEn = false → exec .cmdDhcpRestart s = .next (s.cmdDone s.regs 0x00)) ∧
    (s.regs.dhcpEn = true →
      exec .cmdDhcpRestart s = .next (s.cmdDone { s.regs.abandoned with tmo := 7 } 0x00))

/-- R176, R99: CMD_ARP_RESOLVE makes `ip` the PENDING peer and emits the 42-byte broadcast ARP request for it. -/
def Obligations.CmdArpResolveAsksForThePeer : Prop :=
  ∀ (ip : Ip) (s : State), s.macAccepts →
    exec (.cmdArpResolve ip) s = .next
      (s.cmdSent { s.regs with peerIp := ip, peerMac := 0, peerSt := .pending }
        ([0xFF, 0xFF, 0xFF, 0xFF, 0xFF, 0xFF] ++ bytes48 s.regs.myMac ++ [0x08, 0x06]
          ++ [0x00, 0x01, 0x08, 0x00, 0x06, 0x04] ++ [0x00, 0x01]
          ++ bytes48 s.regs.myMac ++ bytes32 s.regs.myIp ++ zeros 6 ++ bytes32 ip))

/-- R173, R70: the CMD operation completes as the row that `CMD_OP` selects, on the operand in `CMD_ARG`; unless its frame still
waits for the transmit MAC, `CMD_VALID` is then 0. -/
def Obligations.CmdRunsTheRowOfCmdOp : Prop :=
  ∀ s : State,
    (∃ t, exec .cmd s = .next t ∧ exec (decodeCommand s.cmdOp s.cmdArg) s = .next t ∧
      (s.macAccepts ∨ s.macRefuses → t.cmdValid = false)) ∧
    (s.cmdOp = 0x00 → decodeCommand s.cmdOp s.cmdArg = .cmdNop) ∧
    (s.cmdOp = 0x01 → decodeCommand s.cmdOp s.cmdArg = .cmdDhcpRestart) ∧
    (s.cmdOp = 0x02 → decodeCommand s.cmdOp s.cmdArg = .cmdArpResolve s.cmdArg) ∧
    (3 ≤ s.cmdOp.toNat → decodeCommand s.cmdOp s.cmdArg = .cmdReserved s.cmdOp)

/-! ## The TICK operation (47_dhcp_timer_tx.md) -/

/-- R160: the TICK operation completes as the row that `DHCP_EN` and `DSTATE` select; with `DHCP_EN` = 0 the tick is consumed and
has no other effect. -/
def Obligations.TickRunsTheRowOfTheState : Prop :=
  ∀ s : State,
    (∃ t, exec .tick s = .next t ∧ exec (decodeTick s.regs.dhcpEn s.regs.dstate) s = .next t) ∧
    (∀ d, decodeTick false d = .tickStatic) ∧
    decodeTick true .init = .tickInit ∧ decodeTick true .selecting = .tickSelecting ∧
    decodeTick true .requesting = .tickRequesting ∧ decodeTick true .bound = .tickBound ∧
    decodeTick true .renewing = .tickRenewing ∧ decodeTick true .rebinding = .tickRebinding ∧
    decodeTick true .initReboot = .tickInitReboot ∧ decodeTick true .rebooting = .tickRebooting ∧
    (s.tickPend ≠ 0 → exec .tickStatic s = .next (s.tickDone s.regs))

/-- R161, R162: a tick in INIT (INIT_REBOOT) takes a fresh xid from the random source, starts the response timer, enters SELECTING
(REBOOTING) and broadcasts a DISCOVER (a REQUEST for the remembered address) carrying that xid; `TMO` is kept. With no answer
scripted the xid is a free value (the queue of answers is the model's form, log 4). -/
def Obligations.TickInitDrawsAnXidAndStarts : Prop :=
  ∀ (s : State) (i : Instr) (d : DState) (form : DhcpForm),
    (i = .tickInit ∧ d = .selecting ∧ form = .discover) ∨ (i = .tickInitReboot ∧ d = .rebooting ∧ form = .reqReboot) →
    s.tickPend ≠ 0 → s.macAccepts →
    ∃ (x : Word) (q : State),
      (∀ v rest, s.draws = v :: rest → x = v ∧ q = { s with draws := rest }) ∧
      (s.draws = [] → q = { s with drawIndex := s.drawIndex + 1 }) ∧
      exec i s = .next
        (q.tickSent { s.regs with xid := x, elapsed := 0, retry := 0, dstate := d }
          (dhcpFrame s.params { s.regs with xid := x, elapsed := 0, retry := 0, dstate := d } form))

/-- R163: a tick in SELECTING counts up to `TMO`; at `TMO` it backs off and falls back to INIT. Nothing is sent. -/
def Obligations.TickSelectingWaitsForAnOffer : Prop :=
  ∀ (s : State) (e : Word), s.tickPend ≠ 0 → e.toNat = min (s.regs.elapsed.toNat + 1) 0xFFFFFFFF →
    (e.toNat < s.regs.tmo.toNat → exec .tickSelecting s = .next (s.tickDone { s.regs with elapsed := e })) ∧
    (s.regs.tmo.toNat ≤ e.toNat →
      exec .tickSelecting s = .next (s.tickDone { s.regs.abandoned with tmo := backoff s.params s.regs.tmo }))

/-- R164: a tick in REQUESTING counts up to `TMO`; at `TMO` it resends the REQUEST with the same xid, backing off, while `RETRY` is
below `DHCP_MAX_RETRIES`, and otherwise gives up. -/
def Obligations.TickRequestingRetriesBounded : Prop :=
  ∀ (s : State) (e : Word), s.tickPend ≠ 0 → e.toNat = min (s.regs.elapsed.toNat + 1) 0xFFFFFFFF →
    (e.toNat < s.regs.tmo.toNat → exec .tickRequesting s = .next (s.tickDone { s.regs with elapsed := e })) ∧
    (s.regs.tmo.toNat ≤ e.toNat → s.regs.retry.toNat < s.params.maxRetries.toNat → s.macAccepts →
      exec .tickRequesting s = .next
        (s.tickSent
          { s.regs with retry := s.regs.retry + 1, tmo := backoff s.params s.regs.tmo, elapsed := 0 }
          (dhcpFrame s.params
            { s.regs with retry := s.regs.retry + 1, tmo := backoff s.params s.regs.tmo, elapsed := 0 } .reqSelect))) ∧
    (s.regs.tmo.toNat ≤ e.toNat → s.params.maxRetries.toNat ≤ s.regs.retry.toNat →
      exec .tickRequesting s = .next (s.tickDone { s.regs.abandoned with tmo := backoff s.params s.regs.tmo }))

/-- R165: a tick in REBOOTING gives up after `DHCP_TIMER_LAP` = 7 ticks, without retransmission. -/
def Obligations.TickRebootingWaitsAFixedTime : Prop :=
  ∀ (s : State) (e : Word), s.tickPend ≠ 0 → e.toNat = min (s.regs.elapsed.toNat + 1) 0xFFFFFFFF →
    (e.toNat < 7 → exec .tickRebooting s = .next (s.tickDone { s.regs with elapsed := e })) ∧
    (7 ≤ e.toNat → exec .tickRebooting s = .next (s.tickDone s.regs.abandoned))

/-- R166: a tick in BOUND, RENEWING or REBINDING ages the lease and tests expiry, then T2, then T1; at most one applies. -/
def Obligations.TickLeaseAgesTheLease : Prop :=
  ∀ (s : State) (e : Word) (i : Instr), i = .tickBound ∨ i = .tickRenewing ∨ i = .tickRebinding →
    s.tickPend ≠ 0 → e.toNat = min (s.regs.elapsed.toNat + 1) 0xFFFFFFFF →
    (s.regs.lease.toNat ≤ e.toNat → exec i s = .next (s.tickDone s.regs.abandoned)) ∧
    (e.toNat < s.regs.lease.toNat → s.regs.t2.toNat ≤ e.toNat → s.regs.dstate ≠ .rebinding → s.macAccepts →
      exec i s = .next
        (s.tickSent { s.regs with elapsed := e, dstate := .rebinding }
          (dhcpFrame s.params { s.regs with elapsed := e, dstate := .rebinding } .reqRebind))) ∧
    (e.toNat < s.regs.lease.toNat → e.toNat < s.regs.t2.toNat → s.regs.t1.toNat ≤ e.toNat → s.regs.dstate = .bound →
      s.macAccepts →
      exec i s = .next
        (s.tickSent { s.regs with elapsed := e, dstate := .renewing }
          (dhcpFrame s.params { s.regs with elapsed := e, dstate := .renewing } .reqRenew))) ∧
    (e.toNat < s.regs.lease.toNat → e.toNat < s.regs.t2.toNat ∨ s.regs.dstate = .rebinding →
      e.toNat < s.regs.t1.toNat ∨ s.regs.dstate ≠ .bound →
      exec i s = .next (s.tickDone { s.regs with elapsed := e }))

/-- R167: `backoff(t) = min(2 × t, DHCP_BACKOFF_CAP)`, without overflow; at the vectors' cap 64 the waits are 7, 14, 28, 56, 64, 64. -/
def Obligations.BackoffDoublesUpToTheCap : Prop :=
  (∀ (p : Params) (t : Half), (backoff p t).toNat = min (2 * t.toNat) p.backoffCap.toNat) ∧
  backoff .vectors 7 = 14 ∧ backoff .vectors 14 = 28 ∧ backoff .vectors 28 = 56 ∧ backoff .vectors 56 = 64 ∧
  backoff .vectors 64 = 64

/-! ## RX: the rows that drop (41_ethernet_classifier.md and the level files) -/

/-- R87, R88, R91, R97, R111, R118, R129, R154, with R92 and R186: the rows whose effect is a drop release the head frame, count it as
received and dropped, and leave their status code; no other register, input or frame changes. R188: so does a frame the receive
MAC flagged, with 0x72, whatever its bytes. -/
def Obligations.DropRowsLeaveTheirCode : Prop :=
  ∀ s : State,
    (∀ f rest, s.rxFifo = f :: rest → f.err = true → exec .rx s = .next (s.rxDropped 0x72)) ∧
    (∀ n, exec (.ethRunt n) s = .next (s.rxDropped 0x01)) ∧
    (∀ n, exec (.ethOversize n) s = .next (s.rxDropped 0x04)) ∧
    (∀ n, exec (.eth8023 n) s = .next (s.rxDropped 0x02)) ∧
    (∀ n, exec (.ethOther n) s = .next (s.rxDropped 0x03)) ∧
    (∀ n, exec (.arpBadOper n) s = .next (s.rxDropped 0x17)) ∧
    (∀ n, exec (.ipOther n) s = .next (s.rxDropped 0x27)) ∧
    (∀ n, exec (.icmpOther n) s = .next (s.rxDropped 0x32)) ∧
    (∀ a b, exec (.udpOther a b) s = .next (s.rxDropped 0x43)) ∧
    (∀ n, exec (.dhcpOther n) s = .next (s.rxDropped 0x65))

/-- The RX operation on a frame is the row that the decoder finds in it: running the whole classifier tree (R86 to R92) gives exactly
what `exec` of the decoded row gives, for every frame and every state of the registers (rows below RX: logs 8 and 21). -/
def Obligations.RxRunsTheDecodedRow : Prop :=
  ∀ (s : State) (f : RxFrame) (rest : List RxFrame), s.rxFifo = f :: rest → f.err = false →
    ∃ t, exec .rx s = .next t ∧ exec (decodeFrame s.params s.regs f.bytes) s = .next t

/-- R86 to R91: the Ethernet checks of the RX operation in order: lengths below 14 and above 1514 bytes, then the EtherType field, a
length up to 0x05DC; 0x0806 and 0x0800 complete as the ARP and the IPv4 row on the frame's source address and the bytes after its
header, and any other value is dropped with 0x03. -/
def Obligations.EthernetChecksInOrder : Prop :=
  ∀ (s : State) (f : Bytes) (rest : List RxFrame) (et : Half), s.rxFifo = ⟨f, false⟩ :: rest → et = be16 f 12 →
    (f.length < 14 → exec .rx s = .next (s.rxDropped 0x01)) ∧
    (1514 < f.length → exec .rx s = .next (s.rxDropped 0x04)) ∧
    (14 ≤ f.length → f.length ≤ 1514 →
      (et.toNat ≤ 0x05DC → exec .rx s = .next (s.rxDropped 0x02)) ∧
      (et = 0x0806 → ∃ t, exec .rx s = .next t ∧ exec (.ethArp (be48 f 6) (f.drop 14)) s = .next t) ∧
      (et = 0x0800 → ∃ t, exec .rx s = .next t ∧ exec (.ethIpv4 (be48 f 6) (f.drop 14)) s = .next t) ∧
      (0x05DC < et.toNat → et ≠ 0x0806 → et ≠ 0x0800 → exec .rx s = .next (s.rxDropped 0x03)))

/-! ## ARP (42_arp.md) -/

/-- R95, R98: a request for `MY_IP` makes its sender the peer and is answered with the 42-byte reply to the frame's Ethernet source;
with `MY_IP` = 0 or another target it is dropped with 0x15. -/
def Obligations.ArpRequestIsAnswered : Prop :=
  ∀ (ethSrc : Mac) (a : ArpAddrs) (s : State),
    (s.regs.myIp ≠ 0 → a.tpa = s.regs.myIp → s.macAccepts →
      exec (.arpRequest ethSrc a) s = .next
        (s.rxSent { s.regs with peerIp := a.spa, peerMac := a.sha, peerSt := .resolved }
          (bytes48 ethSrc ++ bytes48 s.regs.myMac ++ [0x08, 0x06] ++ [0x00, 0x01, 0x08, 0x00, 0x06, 0x04] ++ [0x00, 0x02]
            ++ bytes48 s.regs.myMac ++ bytes32 s.regs.myIp ++ bytes48 a.sha ++ bytes32 a.spa))) ∧
    (s.regs.myIp = 0 ∨ a.tpa ≠ s.regs.myIp → exec (.arpRequest ethSrc a) s = .next (s.rxDropped 0x15))

/-- R96: a reply from the PENDING peer completes the resolution; any other reply is dropped with 0x16. -/
def Obligations.ArpReplyCompletesTheResolution : Prop :=
  ∀ (a : ArpAddrs) (s : State),
    (s.regs.peerSt = .pending → a.spa = s.regs.peerIp →
      exec (.arpReply a) s = .next (s.rxQuiet { s.regs with peerMac := a.sha, peerSt := .resolved })) ∧
    (s.regs.peerSt ≠ .pending ∨ a.spa ≠ s.regs.peerIp → exec (.arpReply a) s = .next (s.rxDropped 0x16))

/-- R89, R93, R94, R97: the ARP checks in order, the first failing one giving the status; a packet that passes them completes as
the row its `oper` selects, with the packet's addresses as operands, whatever follows its 28 bytes. -/
def Obligations.EthArpChecksThenRunsTheRowOfOper : Prop :=
  ∀ (ethSrc : Mac) (pkt : Bytes) (s : State),
    (pkt.length < 28 → exec (.ethArp ethSrc pkt) s = .next (s.rxDropped 0x10)) ∧
    (28 ≤ pkt.length →
      (be16 pkt 0 ≠ 1 → exec (.ethArp ethSrc pkt) s = .next (s.rxDropped 0x11)) ∧
      (be16 pkt 0 = 1 → be16 pkt 2 ≠ 0x0800 → exec (.ethArp ethSrc pkt) s = .next (s.rxDropped 0x12)) ∧
      (be16 pkt 0 = 1 → be16 pkt 2 = 0x0800 → byteAt pkt 4 ≠ 6 →
        exec (.ethArp ethSrc pkt) s = .next (s.rxDropped 0x13)) ∧
      (be16 pkt 0 = 1 → be16 pkt 2 = 0x0800 → byteAt pkt 4 = 6 → byteAt pkt 5 ≠ 4 →
        exec (.ethArp ethSrc pkt) s = .next (s.rxDropped 0x14)) ∧
      (be16 pkt 0 = 1 → be16 pkt 2 = 0x0800 → byteAt pkt 4 = 6 → byteAt pkt 5 = 4 →
        ∀ a : ArpAddrs, a = ⟨be48 pkt 8, be32 pkt 14, be48 pkt 18, be32 pkt 24⟩ →
          (be16 pkt 6 = 1 →
            ∃ t, exec (.ethArp ethSrc pkt) s = .next t ∧ exec (.arpRequest ethSrc a) s = .next t) ∧
          (be16 pkt 6 = 2 → ∃ t, exec (.ethArp ethSrc pkt) s = .next t ∧ exec (.arpReply a) s = .next t) ∧
          (be16 pkt 6 ≠ 1 → be16 pkt 6 ≠ 2 → exec (.ethArp ethSrc pkt) s = .next (s.rxDropped 0x17))))

/-! ## IPv4 (43_ipv4_demux.md) -/

/-- R100 to R106: the IPv4 checks in order, the first failing one giving the status. What the destination filter accepts is
`DestinationFilter`, and that bits 15 and 14 of the fragment field do not matter is in `EthIpv4RunsTheRowOfTheProtocol`. -/
def Obligations.Ipv4ChecksInOrder : Prop :=
  ∀ (ethSrc : Mac) (d : Bytes) (s : State) (hl tot : Nat), hl = (byteAt d 0).toNat % 16 * 4 → tot = (be16 d 2).toNat →
    (d.length < 20 → exec (.ethIpv4 ethSrc d) s = .next (s.rxDropped 0x20)) ∧
    (20 ≤ d.length → (byteAt d 0).toNat / 16 ≠ 4 → exec (.ethIpv4 ethSrc d) s = .next (s.rxDropped 0x21)) ∧
    (20 ≤ d.length → (byteAt d 0).toNat / 16 = 4 →
      (hl < 20 ∨ d.length < hl → exec (.ethIpv4 ethSrc d) s = .next (s.rxDropped 0x22)) ∧
      (20 ≤ hl → hl ≤ d.length →
        (csum [d.take 10, [0, 0], slice d 12 hl] ≠ be16 d 10 →
          exec (.ethIpv4 ethSrc d) s = .next (s.rxDropped 0x23)) ∧
        (csum [d.take 10, [0, 0], slice d 12 hl] = be16 d 10 →
          (tot < hl ∨ d.length < tot → exec (.ethIpv4 ethSrc d) s = .next (s.rxDropped 0x24)) ∧
          (hl ≤ tot → tot ≤ d.length →
            (acceptsDst s.regs (be32 d 16) = false → exec (.ethIpv4 ethSrc d) s = .next (s.rxDropped 0x25)) ∧
            (acceptsDst s.regs (be32 d 16) = true → (be16 d 6).toNat % 0x4000 ≠ 0 →
              exec (.ethIpv4 ethSrc d) s = .next (s.rxDropped 0x26))))))

/-- R107 to R111: a datagram that passes every check completes as the row its protocol selects, with the payload of R104. -/
def Obligations.EthIpv4RunsTheRowOfTheProtocol : Prop :=
  ∀ (ethSrc : Mac) (d : Bytes) (s : State) (hl tot : Nat), hl = (byteAt d 0).toNat % 16 * 4 → tot = (be16 d 2).toNat →
    20 ≤ d.length → (byteAt d 0).toNat / 16 = 4 → 20 ≤ hl → hl ≤ d.length →
    csum [d.take 10, [0, 0], slice d 12 hl] = be16 d 10 → hl ≤ tot → tot ≤ d.length →
    acceptsDst s.regs (be32 d 16) = true → (be16 d 6).toNat % 0x4000 = 0 →
    (byteAt d 9 = 1 → ∃ t, exec (.ethIpv4 ethSrc d) s = .next t ∧
      exec (.ipIcmp ethSrc (be32 d 12) (be32 d 16) (slice d hl tot)) s = .next t) ∧
    (byteAt d 9 = 17 → ∃ t, exec (.ethIpv4 ethSrc d) s = .next t ∧
      exec (.ipUdp (be32 d 12) (be32 d 16) (slice d hl tot)) s = .next t) ∧
    (byteAt d 9 = 6 → ∃ t, exec (.ethIpv4 ethSrc d) s = .next t ∧ exec (.ipTcp (slice d hl tot)) s = .next t) ∧
    (byteAt d 9 ≠ 1 → byteAt d 9 ≠ 17 → byteAt d 9 ≠ 6 → exec (.ethIpv4 ethSrc d) s = .next (s.rxDropped 0x27))

/-- R105: what the destination filter accepts; with no address only the limited broadcast; 0.0.0.0 never. -/
def Obligations.DestinationFilter : Prop :=
  ∀ (r : Regs) (dst : Ip),
    (acceptsDst r dst = true ↔
      (r.myIp ≠ 0 ∧ dst = r.myIp) ∨ dst = 0xFFFFFFFF ∨ (r.myIp ≠ 0 ∧ dst = (r.myIp ||| ~~~ r.netmask))) ∧
    (r.myIp = 0 → (acceptsDst r dst = true ↔ dst = 0xFFFFFFFF)) ∧
    acceptsDst r 0 = false

/-- R112, R83: the outgoing IPv4 header, field by field; its checksum verifies by R79. -/
def Obligations.OutgoingIpv4Header : Prop :=
  ∀ (p : Params) (proto : Byte) (src dst : Ip) (payload : Bytes), payload.length ≤ 1480 →
    ∃ h : Half,
      ipDatagram p proto src dst payload =
        [0x45, 0x00] ++ bytes16 (BitVec.ofNat 16 (20 + payload.length)) ++ [0x00, 0x00] ++ [0x40, 0x00]
          ++ [p.defaultTtl, proto] ++ bytes16 h ++ bytes32 src ++ bytes32 dst ++ payload ∧
      h = csum [[0x45, 0x00] ++ bytes16 (BitVec.ofNat 16 (20 + payload.length)) ++ [0x00, 0x00] ++ [0x40, 0x00]
          ++ [p.defaultTtl, proto] ++ [0x00, 0x00] ++ bytes32 src ++ bytes32 dst] ∧
      verifies ((ipDatagram p proto src dst payload).take 20) 10 = true

/-! ## ICMP, UDP, TCP (44_icmp.md, 45_udp_tcp.md) -/

/-- R117, R120: an echo request is answered from `MY_IP` to the request frame's Ethernet source, with type 0 and the request's code,
identifier, sequence number and payload; with `MY_IP` = 0 it is dropped with 0x33. -/
def Obligations.IcmpEchoIsAnswered : Prop :=
  ∀ (ethSrc : Mac) (src : Ip) (code : Byte) (rest : Bytes) (s : State),
    (s.regs.myIp ≠ 0 → s.macAccepts →
      exec (.icmpEcho ethSrc src code rest) s = .next
        (s.rxSent s.regs
          (bytes48 ethSrc ++ bytes48 s.regs.myMac ++ [0x08, 0x00]
            ++ ipDatagram s.params 1 s.regs.myIp src
              ([0x00, code] ++ bytes16 (csum [[0x00, code, 0x00, 0x00] ++ rest]) ++ rest)))) ∧
    (s.regs.myIp = 0 → exec (.icmpEcho ethSrc src code rest) s = .next (s.rxDropped 0x33))

/-- R108, R115 to R119: the ICMP checks in order (length, checksum, type), then the row the type selects. -/
def Obligations.IpIcmpChecksThenRunsTheRowOfTheType : Prop :=
  ∀ (ethSrc : Mac) (src dst : Ip) (m : Bytes) (s : State),
    (m.length < 8 → exec (.ipIcmp ethSrc src dst m) s = .next (s.rxDropped 0x30)) ∧
    (8 ≤ m.length → csum [m.take 2, [0, 0], m.drop 4] ≠ be16 m 2 →
      exec (.ipIcmp ethSrc src dst m) s = .next (s.rxDropped 0x31)) ∧
    (8 ≤ m.length → csum [m.take 2, [0, 0], m.drop 4] = be16 m 2 → byteAt m 0 ≠ 8 →
      exec (.ipIcmp ethSrc src dst m) s = .next (s.rxDropped 0x32)) ∧
    (8 ≤ m.length → csum [m.take 2, [0, 0], m.drop 4] = be16 m 2 → byteAt m 0 = 8 →
      ∃ t, exec (.ipIcmp ethSrc src dst m) s = .next t ∧
        exec (.icmpEcho ethSrc src (byteAt m 1) (m.drop 4)) s = .next t)

/-- R109, R125 to R129: the UDP checks in order, then the row the ports select; the payload ends at the UDP length. -/
def Obligations.IpUdpChecksThenRunsTheRowOfThePorts : Prop :=
  ∀ (src dst : Ip) (p : Bytes) (s : State) (ulen : Nat), ulen = (be16 p 4).toNat →
    (p.length < 8 → exec (.ipUdp src dst p) s = .next (s.rxDropped 0x40)) ∧
    (8 ≤ p.length → ulen < 8 ∨ p.length < ulen → exec (.ipUdp src dst p) s = .next (s.rxDropped 0x41)) ∧
    (8 ≤ ulen → ulen ≤ p.length →
      (∀ c, c = csum [pseudo src dst 17 (be16 p 4), p.take 6, [0, 0], slice p 8 ulen] →
        (be16 p 6 ≠ 0 → c ≠ be16 p 6 → ¬ (c = 0 ∧ be16 p 6 = 0xFFFF) →
          exec (.ipUdp src dst p) s = .next (s.rxDropped 0x42)) ∧
        (be16 p 6 = 0 ∨ c = be16 p 6 ∨ (c = 0 ∧ be16 p 6 = 0xFFFF) →
          (be16 p 0 = 67 → be16 p 2 = 68 →
            ∃ t, exec (.ipUdp src dst p) s = .next t ∧ exec (.udpDhcp (slice p 8 ulen)) s = .next t) ∧
          (be16 p 0 ≠ 67 ∨ be16 p 2 ≠ 68 → exec (.ipUdp src dst p) s = .next (s.rxDropped 0x43)))))

/-- R110, R130, R131: the TCP header check, then the latch: TCP_INSPECT latches the parsed header and counts the segment; nothing is
sent, and neither ports, flags nor the checksum are looked at. -/
def Obligations.IpTcpChecksThenLatches : Prop :=
  (∀ (p : Bytes) (s : State) (doff : Nat), doff = (byteAt p 12).toNat / 16 →
    (p.length < 20 ∨ doff < 5 ∨ p.length < doff * 4 → exec (.ipTcp p) s = .next (s.rxDropped 0x50)) ∧
    (20 ≤ p.length → 5 ≤ doff → doff * 4 ≤ p.length →
      exec (.ipTcp p) s = .next
        (s.rxQuiet
          { s.regs with
            tcpSport := be16 p 0, tcpDport := be16 p 2, tcpSeq := be32 p 4, tcpAck := be32 p 8
            tcpOffFlags := be16 p 12, tcpCount := s.regs.tcpCount + 1 }))) ∧
  (∀ (h : TcpHeader) (s : State),
    exec (.tcpInspect h) s = .next
      (s.rxQuiet
        { s.regs with
          tcpSport := h.sport, tcpDport := h.dport, tcpSeq := h.seq, tcpAck := h.ack, tcpOffFlags := h.offFlags
          tcpCount := s.regs.tcpCount + 1 }))

/-- R132, R81, R82: the outgoing UDP datagram, field by field; its checksum is never 0 and passes the receive check. -/
def Obligations.OutgoingUdpDatagram : Prop :=
  ∀ (src dst : Ip) (sport dport : Half) (data : Bytes), data.length ≤ 1472 →
    ∃ c k : Half,
      c = csum [pseudo src dst 17 (BitVec.ofNat 16 (8 + data.length)),
        bytes16 sport ++ bytes16 dport ++ bytes16 (BitVec.ofNat 16 (8 + data.length)) ++ [0x00, 0x00] ++ data] ∧
      k = (if c = 0 then 0xFFFF else c) ∧ k ≠ 0 ∧
      udpDatagram src dst sport dport data =
        bytes16 sport ++ bytes16 dport ++ bytes16 (BitVec.ofNat 16 (8 + data.length)) ++ bytes16 k ++ data ∧
      udpVerifies src dst (udpDatagram src dst sport dport data) = true

/-! ## DHCP (46_dhcp_rx.md, 47_dhcp_timer_tx.md) -/

/-- R140 to R148, R154: the DHCP acceptance checks in order, the first failing one giving the status; a message that passes them
completes as the row that its type and `DSTATE` select; in INIT, BOUND and INIT_REBOOT, and for a type the state does not take,
it is dropped with 0x65. -/
def Obligations.UdpDhcpChecksThenRunsTheRowOfTypeAndState : Prop :=
  ∀ (d : Bytes) (s : State),
    (s.regs.dhcpEn = false → exec (.udpDhcp d) s = .next (s.rxDropped 0x68)) ∧
    (s.regs.dhcpEn = true →
      (d.length < 240 → exec (.udpDhcp d) s = .next (s.rxDropped 0x60)) ∧
      (240 ≤ d.length →
        (byteAt d 0 ≠ 2 → exec (.udpDhcp d) s = .next (s.rxDropped 0x61)) ∧
        (byteAt d 0 = 2 → be32 d 236 ≠ 0x63825363 → exec (.udpDhcp d) s = .next (s.rxDropped 0x62)) ∧
        (byteAt d 0 = 2 → be32 d 236 = 0x63825363 → be32 d 4 ≠ s.regs.xid →
          exec (.udpDhcp d) s = .next (s.rxDropped 0x63)) ∧
        (byteAt d 0 = 2 → be32 d 236 = 0x63825363 → be32 d 4 = s.regs.xid →
          ∀ o, o = parseOptions (optionBytes s.params d).length (optionBytes s.params d) .empty →
            (o.msgType = none → exec (.udpDhcp d) s = .next (s.rxDropped 0x64)) ∧
            (∀ mt, o.msgType = some mt →
              (s.regs.dstate = .selecting → mt = 2 →
                ∃ t, exec (.udpDhcp d) s = .next t ∧ exec (.dhcpOffer (be32 d 16) o.opts) s = .next t) ∧
              (s.regs.dstate = .requesting ∨ s.regs.dstate = .rebooting → mt = 5 →
                ∃ t, exec (.udpDhcp d) s = .next t ∧ exec (.dhcpAckBind (be32 d 16) o.opts) s = .next t) ∧
              (s.regs.dstate = .renewing ∨ s.regs.dstate = .rebinding → mt = 5 →
                ∃ t, exec (.udpDhcp d) s = .next t ∧ exec (.dhcpAckExtend (be32 d 16) o.opts) s = .next t) ∧
              (s.regs.dstate = .requesting ∨ s.regs.dstate = .rebooting ∨ s.regs.dstate = .renewing ∨
                s.regs.dstate = .rebinding → mt = 6 → exec (.udpDhcp d) s = .next (s.rxQuiet s.regs.abandoned)) ∧
              (s.regs.dstate = .init ∨ s.regs.dstate = .bound ∨ s.regs.dstate = .initReboot ∨
                (s.regs.dstate = .selecting ∧ mt ≠ 2) ∨ (s.regs.dstate ≠ .selecting ∧ mt ≠ 5 ∧ mt ≠ 6) →
                exec (.udpDhcp d) s = .next (s.rxDropped 0x65))))))

/-- R149: an OFFER with a server identifier and an address is requested, once, with the xid kept; without option 54 it is dropped
with 0x66, with `yiaddr` 0 with 0x69. -/
def Obligations.DhcpOfferIsRequested : Prop :=
  ∀ (y : Ip) (o : DhcpOpts) (s : State),
    (o.server = none → exec (.dhcpOffer y o) s = .next (s.rxDropped 0x66)) ∧
    (∀ server, o.server = some server →
      (y = 0 → exec (.dhcpOffer y o) s = .next (s.rxDropped 0x69)) ∧
      (y ≠ 0 → s.macAccepts →
        exec (.dhcpOffer y o) s = .next
          (s.rxSent { s.regs with dhAddr := y, serverId := server, elapsed := 0, retry := 0, dstate := .requesting }
            (dhcpFrame s.params
              { s.regs with dhAddr := y, serverId := server, elapsed := 0, retry := 0, dstate := .requesting }
              .reqSelect))))

/-- R150, R152: an ACK in REQUESTING or REBOOTING binds the lease it carries, with the default times where options 58 and 59 are
absent; without option 51 it is dropped with 0x66, with `yiaddr` 0 with 0x69. For a lease of 0xFFFFFFFF the default T2 is the
formula's 0xDFFFFFFF and not the constant of R152's corner case: the model's choice, log 11. -/
def Obligations.DhcpAckBindsTheLease : Prop :=
  ∀ (y : Ip) (o : DhcpOpts) (s : State),
    (o.lease = none → exec (.dhcpAckBind y o) s = .next (s.rxDropped 0x66)) ∧
    (∀ lease, o.lease = some lease →
      (y = 0 → exec (.dhcpAckBind y o) s = .next (s.rxDropped 0x69)) ∧
      (y ≠ 0 → ∃ t1 t2 : Word,
        (∀ v, o.t1 = some v → t1 = v) ∧ (o.t1 = none → t1.toNat = lease.toNat / 2) ∧
        (∀ v, o.t2 = some v → t2 = v) ∧ (o.t2 = none → t2.toNat = 7 * lease.toNat / 8) ∧
        exec (.dhcpAckBind y o) s = .next
          (s.rxQuiet
            { s.regs with
              myIp := y, dhAddr := y, lease := lease, t1 := t1, t2 := t2, serverId := o.server.getD s.regs.serverId
              elapsed := 0, retry := 0, tmo := 7, dstate := .bound })))

/-- R151, R152: an ACK in RENEWING or REBINDING for the same address extends the lease; for another address it is dropped with
0x67, without option 51 with 0x66. For a lease of 0xFFFFFFFF the default T2 is the formula's 0xDFFFFFFF and not the constant of
R152's corner case: the model's choice, log 11. -/
def Obligations.DhcpAckExtendsTheLease : Prop :=
  ∀ (y : Ip) (o : DhcpOpts) (s : State),
    (o.lease = none → exec (.dhcpAckExtend y o) s = .next (s.rxDropped 0x66)) ∧
    (∀ lease, o.lease = some lease →
      (y ≠ s.regs.dhAddr → exec (.dhcpAckExtend y o) s = .next (s.rxDropped 0x67)) ∧
      (y = s.regs.dhAddr → ∃ t1 t2 : Word,
        (∀ v, o.t1 = some v → t1 = v) ∧ (o.t1 = none → t1.toNat = lease.toNat / 2) ∧
        (∀ v, o.t2 = some v → t2 = v) ∧ (o.t2 = none → t2.toNat = 7 * lease.toNat / 8) ∧
        exec (.dhcpAckExtend y o) s = .next
          (s.rxQuiet
            { s.regs with
              myIp := y, dhAddr := y, lease := lease, t1 := t1, t2 := t2, serverId := o.server.getD s.regs.serverId
              elapsed := 0, retry := 0, tmo := 7, dstate := .bound })))

/-- R153, R155: a NAK abandons the lease; `XID`, `TMO` and the peer slot are kept, nothing is sent. -/
def Obligations.DhcpNakAbandonsTheLease : Prop :=
  ∀ s : State, exec .dhcpNak s = .next
    (s.rxQuiet
      { s.regs with
        myIp := 0, dhAddr := 0, serverId := 0, lease := 0, t1 := 0, t2 := 0, elapsed := 0, retry := 0, dstate := .init })

/-- R145, R146: the option bytes examined run from offset 240 to `min(n, 240 + DHCP_OPT_BUF_LEN)`; recording keeps the first option
53 of length 1 and the first options 51, 54, 58 and 59 of length 4, and ignores every other code, length and repetition; the loop:
nothing after END is examined, PAD is one byte, an option whose value is present is recorded and passed over, and one that is cut
off ends the parse. So parsing never overwrites a recorded option. The model's loop bound never cuts a parse short. -/
def Obligations.OptionParsingFollowsTheLoop : Prop :=
  (∀ (p : Params) (d : Bytes), (optionBytes p d).length = min d.length (240 + p.optBufLen) - 240 ∧
    ∀ j, 240 + j < min d.length (240 + p.optBufLen) → byteAt (optionBytes p d) j = byteAt d (240 + j)) ∧
  (∀ (o : ParsedOpts) (v : Bytes),
    (o.msgType = none → v.length = 1 → recordOption o 53 v = { o with msgType := some (byteAt v 0) }) ∧
    (o.msgType ≠ none ∨ v.length ≠ 1 → recordOption o 53 v = o) ∧
    (o.opts.lease = none → v.length = 4 → recordOption o 51 v = { o with opts := { o.opts with lease := some (be32 v 0) } }) ∧
    (o.opts.lease ≠ none ∨ v.length ≠ 4 → recordOption o 51 v = o) ∧
    (o.opts.server = none → v.length = 4 → recordOption o 54 v = { o with opts := { o.opts with server := some (be32 v 0) } }) ∧
    (o.opts.server ≠ none ∨ v.length ≠ 4 → recordOption o 54 v = o) ∧
    (o.opts.t1 = none → v.length = 4 → recordOption o 58 v = { o with opts := { o.opts with t1 := some (be32 v 0) } }) ∧
    (o.opts.t1 ≠ none ∨ v.length ≠ 4 → recordOption o 58 v = o) ∧
    (o.opts.t2 = none → v.length = 4 → recordOption o 59 v = { o with opts := { o.opts with t2 := some (be32 v 0) } }) ∧
    (o.opts.t2 ≠ none ∨ v.length ≠ 4 → recordOption o 59 v = o) ∧
    (∀ code : Byte, code ≠ 53 → code ≠ 51 → code ≠ 54 → code ≠ 58 → code ≠ 59 → recordOption o code v = o)) ∧
  ParsedOpts.empty = ⟨none, none, none, none, none⟩ ∧ (∀ o : ParsedOpts, parseOptions 0 [] o = o) ∧
  (∀ (fuel : Nat) (bs : Bytes) (o : ParsedOpts),
    (∀ v, o.msgType = some v → (parseOptions fuel bs o).msgType = some v) ∧
    (∀ v, o.opts.lease = some v → (parseOptions fuel bs o).opts.lease = some v) ∧
    (∀ v, o.opts.server = some v → (parseOptions fuel bs o).opts.server = some v) ∧
    (∀ v, o.opts.t1 = some v → (parseOptions fuel bs o).opts.t1 = some v) ∧
    (∀ v, o.opts.t2 = some v → (parseOptions fuel bs o).opts.t2 = some v)) ∧
  (∀ (fuel : Nat) (bs : Bytes) (o : ParsedOpts), bs.length ≤ fuel → parseOptions fuel bs o = parseOptions bs.length bs o) ∧
  (∀ (n : Nat) (tail : Bytes) (o : ParsedOpts), n = tail.length →
    parseOptions (n + 1) (255 :: tail) o = o ∧ parseOptions (n + 1) (0 :: tail) o = parseOptions n tail o) ∧
  (∀ (code len : Byte) (v tail : Bytes) (o : ParsedOpts), code ≠ 0 → code ≠ 255 → v.length = len.toNat →
    parseOptions (code :: len :: v ++ tail).length (code :: len :: v ++ tail) o
      = parseOptions tail.length tail (recordOption o code v)) ∧
  (∀ (code len : Byte) (v : Bytes) (o : ParsedOpts), code ≠ 0 → code ≠ 255 → v.length < len.toNat →
    parseOptions (code :: len :: v).length (code :: len :: v) o = o ∧ parseOptions 1 [code] o = o)

/-- R168 to R172, with R80, R81, R83, R112 and R132: the five messages of the client, byte for byte: `h` is the checksum of the
IPv4 header, `c` the UDP checksum over the pseudo-header and the datagram, a computed 0 sent as 0xFFFF; and so their lengths 286,
298, 292, 286 and 286. -/
def Obligations.DhcpFrameLayout : Prop :=
  ∀ (p : Params) (r : Regs) (form : DhcpForm),
    ∃ (ed : Mac) (ipLen udpLen : Half) (src dst ciaddr : Ip) (opts msg : Bytes) (h c k : Half),
      msg = [0x01, 0x01, 0x06, 0x00] ++ bytes32 r.xid ++ [0x00, 0x00, 0x80, 0x00] ++ bytes32 ciaddr ++ zeros 12
        ++ bytes48 r.myMac ++ zeros 202 ++ [0x63, 0x82, 0x53, 0x63] ++ opts ∧
      h = csum [[0x45, 0x00] ++ bytes16 ipLen ++ [0x00, 0x00, 0x40, 0x00, p.defaultTtl, 17] ++ [0x00, 0x00]
        ++ bytes32 src ++ bytes32 dst] ∧
      k = csum [bytes32 src ++ bytes32 dst ++ [0x00, 17] ++ bytes16 udpLen,
        bytes16 68 ++ bytes16 67 ++ bytes16 udpLen ++ [0x00, 0x00] ++ msg] ∧
      c = (if k = 0 then 0xFFFF else k) ∧
      dhcpFrame p r form =
        bytes48 ed ++ bytes48 r.myMac ++ [0x08, 0x00]
          ++ ([0x45, 0x00] ++ bytes16 ipLen ++ [0x00, 0x00, 0x40, 0x00, p.defaultTtl, 17] ++ bytes16 h
            ++ bytes32 src ++ bytes32 dst)
          ++ (bytes16 68 ++ bytes16 67 ++ bytes16 udpLen ++ bytes16 c) ++ msg ∧
      (dhcpFrame p r form).length = 14 + ipLen.toNat ∧ ipLen.toNat = 20 + udpLen.toNat ∧
      (form = .discover →
        ipLen = 272 ∧ ed = 0xFFFFFFFFFFFF ∧ src = 0 ∧ dst = 0xFFFFFFFF ∧ ciaddr = 0 ∧ opts = [0x35, 0x01, 0x01, 0xFF]) ∧
      (form = .reqSelect →
        ipLen = 284 ∧ ed = 0xFFFFFFFFFFFF ∧ src = 0 ∧ dst = 0xFFFFFFFF ∧ ciaddr = 0 ∧
        opts = [0x35, 0x01, 0x03, 0x32, 0x04] ++ bytes32 r.dhAddr ++ [0x36, 0x04] ++ bytes32 r.serverId ++ [0xFF]) ∧
      (form = .reqReboot →
        ipLen = 278 ∧ ed = 0xFFFFFFFFFFFF ∧ src = 0 ∧ dst = 0xFFFFFFFF ∧ ciaddr = 0 ∧
        opts = [0x35, 0x01, 0x03, 0x32, 0x04] ++ bytes32 r.dhAddr ++ [0xFF]) ∧
      (form = .reqRenew →
        ipLen = 272 ∧ src = r.myIp ∧ ciaddr = r.myIp ∧ opts = [0x35, 0x01, 0x03, 0xFF] ∧
        (r.serverId = 0 → dst = 0xFFFFFFFF) ∧ (r.serverId ≠ 0 → dst = r.serverId) ∧
        (r.peerSt = .resolved ∧ r.peerIp = r.serverId ∧ r.serverId ≠ 0 → ed = r.peerMac) ∧
        (¬ (r.peerSt = .resolved ∧ r.peerIp = r.serverId ∧ r.serverId ≠ 0) → ed = 0xFFFFFFFFFFFF)) ∧
      (form = .reqRebind →
        ipLen = 272 ∧ ed = 0xFFFFFFFFFFFF ∧ src = r.myIp ∧ dst = 0xFFFFFFFF ∧ ciaddr = r.myIp ∧
        opts = [0x35, 0x01, 0x03, 0xFF])

/-! ## The checksum engine (40_checksum.md) -/

/-- R78: the running sum fits in 16 bits; the result is 0xFFFF exactly when every byte is 0; the bytes pair across segment
boundaries; an odd final byte counts as a word with a zero low byte; and the rule's worked example. -/
def Obligations.ChecksumLaws : Prop :=
  (∀ bs : Bytes, csumSum bs 0 < 65536 ∧ (csum [bs] = 0xFFFF ↔ ∀ b ∈ bs, b = 0)) ∧
  (∀ segments : List Bytes, csum segments = csum [segments.flatten]) ∧
  (∀ bs : Bytes, bs.length % 2 = 1 → csum [bs, [0x00]] = csum [bs]) ∧
  csum [[0x00, 0x01, 0xF2, 0x03, 0xF4, 0xF5, 0xF6, 0xF7]] = 0x220D ∧ csum [[0x12], [0x34, 0x56]] = 0x97CB

/-- R85, R79: inserting the computed checksum into a zero field and rechecking reports success. -/
def Obligations.ChecksumInsertionVerifies : Prop :=
  ∀ (u : Bytes) (c : Nat), c + 2 ≤ u.length → be16 u c = 0 → verifies (insertChecksum u c) c = true

/-! ## Commit and drop (60_exceptions.md) -/

/-- R187, R185, R186: whichever row's frame the transmit MAC refuses, only the completion writes are made, with status 0x71: no
register of the row's copy is kept and nothing is sent. A tick is consumed all the same, and so is a drawn value, scripted or free
(R76, D44). `State.Emits` lists the emitting rows with their conditions. -/
def Obligations.TransmitErrorIsADrop : Prop :=
  ∀ (s q : State) (i : Instr) (k : OpKind) (r : Regs) (f : Bytes), s.Emits i q k r f → s.macRefuses →
    (k = .rx → exec i s = .next (State.rxDropped { q with txAnswers := s.txAnswers.tail } 0x71)) ∧
    (k = .cmd → exec i s = .next (State.cmdDone { q with txAnswers := s.txAnswers.tail } s.regs 0x71)) ∧
    (k = .tick → s.tickPend ≠ 0 →
      exec i s = .next
        { q with
          txAnswers := s.txAnswers.tail, tickPend := s.tickPend - 1, regs := { s.regs with lastStatus := 0x71 } })

/-- R185, R196, R50: while an operation waits for the transmit MAC nothing of it shows: the committed registers, every status
read, the FIFO and the transmit stream are as before it. What it holds is the register copy and the frame of its row, the very
ones it commits when the MAC accepts at once; and whatever instruction waits, it holds those of a row that `State.Emits` lists. -/
def Obligations.NothingShowsBeforeTheCommit : Prop :=
  (∀ (i : Instr) (s t : State), s.held = none → exec i s = .next t → t.held ≠ none →
    t.regs = s.regs ∧ t.rxFifo = s.rxFifo ∧ t.txStream = s.txStream ∧ t.tickPend = s.tickPend ∧
    t.cmdValid = s.cmdValid ∧ (∀ a, t.image a = s.image a) ∧
    ∃ (j : Instr) (q : State) (k : OpKind) (r : Regs) (f : Bytes), s.Emits j q k r f ∧
      t = { q with txAnswers := s.txAnswers.tail, held := some ⟨k, r, f⟩ }) ∧
  (∀ (s q : State) (i : Instr) (k : OpKind) (r : Regs) (f : Bytes), s.Emits i q k r f →
    (s.macWaits → exec i s = .next { q with txAnswers := s.txAnswers.tail, held := some ⟨k, r, f⟩ }) ∧
    (s.macAccepts → k = .rx → exec i s = .next (q.rxSent r f)) ∧
    (s.macAccepts → k = .cmd → exec i s = .next (q.cmdSent r f)) ∧
    (s.macAccepts → k = .tick → s.tickPend ≠ 0 → exec i s = .next (q.tickSent r f)))

/-- R196, R185, R187, R190: on the engine's turn an operation in progress, and no other, goes on: it commits when the transmit MAC
accepts, drops with 0x71 when it refuses, and waits when there is no answer (the queue of answers is the model's form, log 5). -/
def Obligations.HeldOperationResumes : Prop :=
  ∀ (s q : State) (h : Held), s.env = [] → s.resetIn = false → s.held = some h →
    q = { s with held := none } →
    (s.macAccepts → h.kind = .rx → step s = .next (q.rxSent h.regs h.frame)) ∧
    (s.macAccepts → h.kind = .cmd → step s = .next (q.cmdSent h.regs h.frame)) ∧
    (s.macAccepts → h.kind = .tick → s.tickPend ≠ 0 → step s = .next (q.tickSent h.regs h.frame)) ∧
    (s.macRefuses → h.kind = .rx →
      step s = .next (State.rxDropped { q with txAnswers := s.txAnswers.tail } 0x71)) ∧
    (s.macRefuses → h.kind = .cmd →
      step s = .next (State.cmdDone { q with txAnswers := s.txAnswers.tail } s.regs 0x71)) ∧
    (s.macRefuses → h.kind = .tick → s.tickPend ≠ 0 →
      step s = .next
        { q with
          txAnswers := s.txAnswers.tail, tickPend := s.tickPend - 1, regs := { s.regs with lastStatus := 0x71 } }) ∧
    (s.macWaits → step s = .next { s with txAnswers := s.txAnswers.tail })

/-- R186: drops are precise. Whatever the engine's turn ran, a nonzero status in `LAST_STATUS` afterwards means one of two things.
Either no operation ended in it: the registers and every input are as before. Or one operation ended with a drop, and only its own
completion writes were made: RX released the head frame and grew `RX_COUNT` and `DROP_COUNT` by one, CMD cleared `CMD_VALID`, TICK
took one tick. `q` is the state before, apart from the operation in progress and the answers used up of the transmit MAC and the
random source. -/
def Obligations.DropsArePrecise : Prop :=
  ∀ s t : State, s.env = [] → step s = .next t → t.regs.lastStatus ≠ 0 →
    ∃ q : State, q = { s with held := q.held, txAnswers := q.txAnswers, draws := q.draws, drawIndex := q.drawIndex } ∧
      (t = q ∨
        (q.held = none ∧ ∃ code : BitVec 8, code ≠ 0 ∧
          (t = q.rxDropped code ∨ t = q.cmdDone s.regs code ∨
            (t = { q with tickPend := t.tickPend, regs := { s.regs with lastStatus := code } } ∧
              (s.tickPend ≠ 0 → t.tickPend = s.tickPend - 1)))))

/-- R8, R47: a step emits at most one frame, and frames already sent stay sent, in order. -/
def Obligations.AtMostOneFrameEachStep : Prop :=
  ∀ s t : State, step s = .next t → t.txStream = s.txStream ∨ ∃ f, t.txStream = s.txStream ++ [f]

/-- R192, D7: no received frame changes the configuration, the command register or the pending ticks. -/
def Obligations.FramesReachNoHostFunction : Prop :=
  ∀ (s t : State), exec .rx s = .next t →
    t.cmdValid = s.cmdValid ∧ t.cmdOp = s.cmdOp ∧ t.cmdArg = s.cmdArg ∧ t.tickPend = s.tickPend ∧ t.pins = s.pins ∧
    t.resetIn = s.resetIn ∧ t.regs.myMac = s.regs.myMac ∧ t.regs.netmask = s.regs.netmask ∧
    t.regs.dhcpEn = s.regs.dhcpEn

/-! ## Invariants -/

/-- R25, R26, R167: the timer registers stay in their ranges through every step (lower bound of `TMO`: log 12). -/
def Obligations.TimersStayBounded : Prop :=
  ∀ s t : State, s.everyRegs (Regs.timersBounded s.params) → step s = .next t →
    t.params = s.params ∧ t.everyRegs (Regs.timersBounded t.params)

/-- R14, R16, R19, R171: the address registers stay consistent with `DSTATE` through every step. -/
def Obligations.AddressesStayConsistent : Prop :=
  ∀ s t : State, s.everyRegs Regs.addressesAgree → step s = .next t → t.everyRegs Regs.addressesAgree

/-- R27 to R30, R180: the peer slot stays sound and `LAST_STATUS` holds a code of the table, through every step. -/
def Obligations.PeerSlotAndStatusStaySound : Prop :=
  ∀ s t : State, s.everyRegs (fun r => r.peerSlotSound ∧ r.statusInTable) → step s = .next t →
    t.everyRegs (fun r => r.peerSlotSound ∧ r.statusInTable)

/-- R39, R42, R98, R112, R172, R186, R202: the FIFO stays within its capacity, an operation in progress keeps the input that
started it, and the frame it holds fits the MTU, through every step. That a command written while reset is asserted is lost, on
which the reset clause of `inputsSound` rests, is the model's choice, log 13. -/
def Obligations.InputsStaySound : Prop :=
  ∀ s t : State, s.inputsSound → step s = .next t → t.inputsSound

/-- R98, R99, R112, R172: every frame that a step sends is between 42 and `MAX_FRAME_LEN` bytes long. -/
def Obligations.SentFramesFitTheMtu : Prop :=
  ∀ (s t : State) (f : Bytes), s.inputsSound → step s = .next t → t.txStream = s.txStream ++ [f] →
    42 ≤ f.length ∧ f.length ≤ 1514

/-- The invariants hold right after reset, for every setting of the configuration inputs and the OPEN parameters. -/
def Obligations.ResetMeetsTheInvariants : Prop :=
  ∀ (c : Pins) (p : Params),
    (State.afterReset c p).everyRegs (Regs.timersBounded p) ∧
    (State.afterReset c p).everyRegs Regs.addressesAgree ∧
    (State.afterReset c p).everyRegs (fun r => r.peerSlotSound ∧ r.statusInTable) ∧
    (State.afterReset c p).inputsSound

/-! ## Encodings -/

/-- R63, R64, R66, R70: words and frames written out from the spec's encodings decode to the rows they stand for: a command, an ARP
request, an echo request and a TCP segment (vectors P2, P6 and T4). -/
def Obligations.WrittenOutWordsDecode : Prop :=
  decode .vectors (.atReset .static) .command [0x02, 0x0A, 0x00, 0x00, 0x01] = .ok (.cmdArpResolve 0x0A000001) ∧
  decode .vectors (.atReset .static) .command [0x80, 0x00, 0x00, 0x00, 0x00] = .ok (.cmdReserved 0x80) ∧
  decode .vectors (.atReset .static) .frame
    [0xFF, 0xFF, 0xFF, 0xFF, 0xFF, 0xFF, 0x02, 0x00, 0x00, 0x00, 0x00, 0x01, 0x08, 0x06, 0x00, 0x01, 0x08, 0x00, 0x06, 0x04,
     0x00, 0x01, 0x02, 0x00, 0x00, 0x00, 0x00, 0x01, 0x0A, 0x00, 0x00, 0x01, 0x00, 0x00, 0x00, 0x00, 0x00, 0x00,
     0x0A, 0x00, 0x00, 0x02]
    = .ok (.arpRequest 0x020000000001 ⟨0x020000000001, 0x0A000001, 0, 0x0A000002⟩) ∧
  decode .vectors (.atReset .static) .frame
    [0x02, 0x00, 0x00, 0x00, 0x00, 0x02, 0x02, 0x00, 0x00, 0x00, 0x00, 0x01, 0x08, 0x00, 0x45, 0x00, 0x00, 0x20, 0x00, 0x00,
     0x40, 0x00, 0x40, 0x01, 0x26, 0xDB, 0x0A, 0x00, 0x00, 0x01, 0x0A, 0x00, 0x00, 0x02, 0x08, 0x00, 0x21, 0x04,
     0x12, 0x34, 0x00, 0x01, 0x61, 0x62, 0x63, 0x64]
    = .ok (.icmpEcho 0x020000000001 0x0A000001 0 [0x12, 0x34, 0x00, 0x01, 0x61, 0x62, 0x63, 0x64]) ∧
  decode .vectors (.atReset .static) .frame
    [0x02, 0x00, 0x00, 0x00, 0x00, 0x02, 0x02, 0x00, 0x00, 0x00, 0x00, 0x01, 0x08, 0x00, 0x45, 0x00, 0x00, 0x28, 0x00, 0x00,
     0x40, 0x00, 0x40, 0x06, 0x26, 0xCE, 0x0A, 0x00, 0x00, 0x01, 0x0A, 0x00, 0x00, 0x02, 0xC0, 0x00, 0x00, 0x50,
     0x01, 0x02, 0x03, 0x04, 0x00, 0x00, 0x00, 0x00, 0x50, 0x02, 0xFF, 0xFF, 0x00, 0x00, 0x00, 0x00]
    = .ok (.tcpInspect ⟨0xC000, 0x0050, 0x01020304, 0, 0x5002⟩)

/-- Decode and encode agree for the operations, commands, tick states, status reads, and the Ethernet and ARP rows, with every
operand at every value the row admits, under any registers (port layouts: log 8; encoder: log 20). -/
def Obligations.DecodeEncodeUpToArp : Prop :=
  ∀ (p : Params) (r : Regs) (i : Instr),
    i.format = .operation ∨ i.format = .statusRead ∨ i.format = .command ∨ i.format = .tick ∨ i.format = .ethernet ∨
      i.format = .arp →
    i.WellFormed = true → i.admitted p r = true → decode p r (encode p r i).1 (encode p r i).2 = .ok i

/-- Decode and encode agree for the IPv4, ICMP, UDP and TCP rows (encoder: log 20). -/
def Obligations.DecodeEncodeIpFamily : Prop :=
  ∀ (p : Params) (r : Regs) (i : Instr),
    i.format = .ipv4 ∨ i.format = .icmp ∨ i.format = .udp ∨ i.format = .tcp →
    i.WellFormed = true → i.admitted p r = true → decode p r (encode p r i).1 (encode p r i).2 = .ok i

/-- Decode and encode agree for the DHCP rows, their options included, when the options buffer has at least the length R5 asks (encoder: log 20). -/
def Obligations.DecodeEncodeDhcp : Prop :=
  ∀ (p : Params) (r : Regs) (i : Instr), p.wf = true → i.format = .dhcp →
    i.WellFormed = true → i.admitted p r = true → decode p r (encode p r i).1 (encode p r i).2 = .ok i

/-- R72, R75: whatever arrives, the decoder answers only well-formed rows that the registers admit, and it refuses no frame. -/
def Obligations.DecoderAnswersAdmittedRows : Prop :=
  (∀ (p : Params) (r : Regs) (port : Port) (bs : Bytes) (i : Instr), decode p r port bs = .ok i →
    i.WellFormed = true ∧ i.admitted p r = true) ∧
  (∀ (p : Params) (r : Regs) (bs : Bytes), ∃ i, decode p r .frame bs = .ok i)
end

