-- ==== Sys2Proof/Laws/State.lean ====
section
/-! SUPPORT. One lemma per field for the updates of the state that the operations make (true by rfl, tagged @[simp]). -/

namespace Sys2Proof.Machine

variable (s : State) (k : OpKind) (c : StatusCode) (r : Regs) (t : Bytes)

/-! ### The completion writes -/

@[simp] theorem State.close_txStream : (s.close k c).txStream = s.txStream := by cases k <;> rfl
@[simp] theorem State.close_txAnswers : (s.close k c).txAnswers = s.txAnswers := by cases k <;> rfl
@[simp] theorem State.close_held : (s.close k c).held = s.held := by cases k <;> rfl
@[simp] theorem State.close_resetIn : (s.close k c).resetIn = s.resetIn := by cases k <;> rfl
@[simp] theorem State.close_pins : (s.close k c).pins = s.pins := by cases k <;> rfl
@[simp] theorem State.close_params : (s.close k c).params = s.params := by cases k <;> rfl
@[simp] theorem State.close_draws : (s.close k c).draws = s.draws := by cases k <;> rfl
@[simp] theorem State.close_drawIndex : (s.close k c).drawIndex = s.drawIndex := by cases k <;> rfl
@[simp] theorem State.close_env : (s.close k c).env = s.env := by cases k <;> rfl
@[simp] theorem State.close_hostReads : (s.close k c).hostReads = s.hostReads := by cases k <;> rfl
@[simp] theorem State.close_cmdOp : (s.close k c).cmdOp = s.cmdOp := by cases k <;> rfl
@[simp] theorem State.close_cmdArg : (s.close k c).cmdArg = s.cmdArg := by cases k <;> rfl
@[simp] theorem State.close_lastStatus : (s.close k c).regs.lastStatus = c.code := by cases k <;> rfl
@[simp] theorem State.close_rx_rxFifo : (s.close .rx c).rxFifo = s.rxFifo.tail := rfl
@[simp] theorem State.close_cmd_rxFifo : (s.close .cmd c).rxFifo = s.rxFifo := rfl
@[simp] theorem State.close_tick_rxFifo : (s.close .tick c).rxFifo = s.rxFifo := rfl
@[simp] theorem State.close_rx_tickPend : (s.close .rx c).tickPend = s.tickPend := rfl
@[simp] theorem State.close_cmd_tickPend : (s.close .cmd c).tickPend = s.tickPend := rfl
@[simp] theorem State.close_rx_cmdValid : (s.close .rx c).cmdValid = s.cmdValid := rfl
@[simp] theorem State.close_cmd_cmdValid : (s.close .cmd c).cmdValid = false := rfl
@[simp] theorem State.close_tick_cmdValid : (s.close .tick c).cmdValid = s.cmdValid := rfl

/-- The registers the completion writes may change: the two receive counters and `LAST_STATUS` (R186). -/
theorem State.close_regs :
    (s.close k c).regs =
      { s.regs with
        rxCount := (s.close k c).regs.rxCount
        dropCount := (s.close k c).regs.dropCount
        lastStatus := c.code } := by cases k <;> rfl

/-! ### RESET -/

@[simp] theorem State.resetBlock_regs : s.resetBlock.regs = .atReset s.pins := rfl
@[simp] theorem State.resetBlock_tickPend : s.resetBlock.tickPend = 0 := rfl
@[simp] theorem State.resetBlock_cmdValid : s.resetBlock.cmdValid = false := rfl
@[simp] theorem State.resetBlock_held : s.resetBlock.held = none := rfl
@[simp] theorem State.resetBlock_rxFifo : s.resetBlock.rxFifo = s.rxFifo := rfl
@[simp] theorem State.resetBlock_txStream : s.resetBlock.txStream = s.txStream := rfl
@[simp] theorem State.resetBlock_params : s.resetBlock.params = s.params := rfl
@[simp] theorem State.resetBlock_resetIn : s.resetBlock.resetIn = s.resetIn := rfl

/-! ### The random source -/

@[simp] theorem State.drawn_regs : s.drawn.regs = s.regs := by unfold State.drawn; split <;> rfl
@[simp] theorem State.drawn_tickPend : s.drawn.tickPend = s.tickPend := by unfold State.drawn; split <;> rfl
@[simp] theorem State.drawn_cmdValid : s.drawn.cmdValid = s.cmdValid := by unfold State.drawn; split <;> rfl
@[simp] theorem State.drawn_held : s.drawn.held = s.held := by unfold State.drawn; split <;> rfl
@[simp] theorem State.drawn_rxFifo : s.drawn.rxFifo = s.rxFifo := by unfold State.drawn; split <;> rfl
@[simp] theorem State.drawn_txStream : s.drawn.txStream = s.txStream := by unfold State.drawn; split <;> rfl
@[simp] theorem State.drawn_txAnswers : s.drawn.txAnswers = s.txAnswers := by unfold State.drawn; split <;> rfl
@[simp] theorem State.drawn_params : s.drawn.params = s.params := by unfold State.drawn; split <;> rfl
@[simp] theorem State.drawn_resetIn : s.drawn.resetIn = s.resetIn := by unfold State.drawn; split <;> rfl
@[simp] theorem State.drawn_env : s.drawn.env = s.env := by unfold State.drawn; split <;> rfl

/-! ### Ageing and abandonment -/

@[simp] theorem Regs.abandonLease_eq : r.abandonLease = r.abandoned := rfl
@[simp] theorem Regs.age_tmo : r.age.tmo = r.tmo := rfl
@[simp] theorem Regs.age_retry : r.age.retry = r.retry := rfl
@[simp] theorem Regs.age_dstate : r.age.dstate = r.dstate := rfl
@[simp] theorem Regs.age_lease : r.age.lease = r.lease := rfl
@[simp] theorem Regs.age_t1 : r.age.t1 = r.t1 := rfl
@[simp] theorem Regs.age_t2 : r.age.t2 = r.t2 := rfl

/-! ### The environment's moves -/

@[simp] theorem State.tickPulse_regs : s.tickPulse.regs = s.regs := by unfold State.tickPulse; split <;> rfl
@[simp] theorem State.tickPulse_held : s.tickPulse.held = s.held := by unfold State.tickPulse; split <;> rfl
@[simp] theorem State.tickPulse_rxFifo : s.tickPulse.rxFifo = s.rxFifo := by unfold State.tickPulse; split <;> rfl
@[simp] theorem State.tickPulse_txStream : s.tickPulse.txStream = s.txStream := by unfold State.tickPulse; split <;> rfl
@[simp] theorem State.tickPulse_params : s.tickPulse.params = s.params := by unfold State.tickPulse; split <;> rfl
@[simp] theorem State.tickPulse_resetIn : s.tickPulse.resetIn = s.resetIn := by unfold State.tickPulse; split <;> rfl
@[simp] theorem State.tickPulse_cmdValid : s.tickPulse.cmdValid = s.cmdValid := by unfold State.tickPulse; split <;> rfl
@[simp] theorem State.frameArrives_regs (f : RxFrame) : (s.frameArrives f).regs = s.regs := by
  unfold State.frameArrives; split <;> rfl
@[simp] theorem State.frameArrives_held (f : RxFrame) : (s.frameArrives f).held = s.held := by
  unfold State.frameArrives; split <;> rfl
@[simp] theorem State.frameArrives_txStream (f : RxFrame) : (s.frameArrives f).txStream = s.txStream := by
  unfold State.frameArrives; split <;> rfl
@[simp] theorem State.frameArrives_params (f : RxFrame) : (s.frameArrives f).params = s.params := by
  unfold State.frameArrives; split <;> rfl
@[simp] theorem State.frameArrives_resetIn (f : RxFrame) : (s.frameArrives f).resetIn = s.resetIn := by
  unfold State.frameArrives; split <;> rfl
@[simp] theorem State.frameArrives_tickPend (f : RxFrame) : (s.frameArrives f).tickPend = s.tickPend := by
  unfold State.frameArrives; split <;> rfl
@[simp] theorem State.frameArrives_cmdValid (f : RxFrame) : (s.frameArrives f).cmdValid = s.cmdValid := by
  unfold State.frameArrives; split <;> rfl
@[simp] theorem State.commandWrite_regs (op : BitVec 8) (arg : BitVec 32) : (s.commandWrite op arg).regs = s.regs := by
  unfold State.commandWrite; split <;> rfl
@[simp] theorem State.commandWrite_held (op : BitVec 8) (arg : BitVec 32) : (s.commandWrite op arg).held = s.held := by
  unfold State.commandWrite; split <;> rfl
@[simp] theorem State.commandWrite_rxFifo (op : BitVec 8) (arg : BitVec 32) : (s.commandWrite op arg).rxFifo = s.rxFifo := by
  unfold State.commandWrite; split <;> rfl
@[simp] theorem State.commandWrite_txStream (op : BitVec 8) (arg : BitVec 32) :
    (s.commandWrite op arg).txStream = s.txStream := by
  unfold State.commandWrite; split <;> rfl
@[simp] theorem State.commandWrite_params (op : BitVec 8) (arg : BitVec 32) : (s.commandWrite op arg).params = s.params := by
  unfold State.commandWrite; split <;> rfl
@[simp] theorem State.commandWrite_resetIn (op : BitVec 8) (arg : BitVec 32) :
    (s.commandWrite op arg).resetIn = s.resetIn := by
  unfold State.commandWrite; split <;> rfl
@[simp] theorem State.commandWrite_tickPend (op : BitVec 8) (arg : BitVec 32) :
    (s.commandWrite op arg).tickPend = s.tickPend := by
  unfold State.commandWrite; split <;> rfl

end Sys2Proof.Machine
end

