-- ==== Sys2Proof/Laws/Ops.lean ====
section
/-! SUPPORT. What each shared operation can do, said once: the ends of an operation, the transmit handshake, the engine's turn. -/

namespace Sys2Proof.Machine

variable (s : State)

/-! ### The ends of an operation, in the terms of Safety.lean -/

theorem State.close_rx_drop (c : StatusCode) (h : c ≠ .ok) : s.close .rx c = s.rxDropped c.code := by
  simp [State.close, State.rxDropped, inc, h]

theorem State.close_rx_ok (r : Regs) : State.close { s with regs := r } .rx .ok = s.rxQuiet r := by
  simp [State.close, State.rxQuiet, inc, StatusCode.code]

theorem State.close_cmd (r : Regs) (c : StatusCode) : State.close { s with regs := r } .cmd c = s.cmdDone r c.code := rfl

theorem State.close_tick_ok (r : Regs) (h : s.tickPend ≠ 0) : State.close { s with regs := r } .tick .ok = s.tickDone r := by
  simp only [State.close, State.tickDone, if_neg h]; rfl

/-- The transmit handshake, by the transmit MAC's answer (R185, R187, R196). -/
theorem State.offer_cases (k : OpKind) (r : Regs) (t : Bytes) :
    (s.macAccepts ∧ s.offer k r t = State.commitSent { s with txAnswers := s.txAnswers.tail } k r t) ∨
    (s.macRefuses ∧ s.offer k r t = State.close { s with txAnswers := s.txAnswers.tail } k .ifTxError) ∨
    (s.macWaits ∧
      s.offer k r t =
        { s with txAnswers := s.txAnswers.tail, held := some { kind := k, regs := r, frame := t } }) := by
  unfold State.offer State.macAccepts State.macRefuses State.macWaits
  rcases h : s.txAnswers with _ | ⟨_ | _ | _, rest⟩
  · refine .inl ⟨.inl rfl, ?_⟩
    have : ({ s with txAnswers := [] } : State) = s := by rw [← h]
    simp [this]
  · exact .inl ⟨.inr ⟨rest, rfl⟩, rfl⟩
  · exact .inr (.inl ⟨⟨rest, rfl⟩, rfl⟩)
  · exact .inr (.inr ⟨⟨rest, rfl⟩, rfl⟩)

theorem State.offer_of_accepts (k : OpKind) (r : Regs) (t : Bytes) (h : s.macAccepts) :
    s.offer k r t = State.commitSent { s with txAnswers := s.txAnswers.tail } k r t := by
  rcases h with h | ⟨rest, h⟩
  · have : ({ s with txAnswers := [] } : State) = s := by rw [← h]
    simp [State.offer, h, this]
  · simp [State.offer, h]

theorem State.offer_of_refuses (k : OpKind) (r : Regs) (t : Bytes) (h : s.macRefuses) :
    s.offer k r t = State.close { s with txAnswers := s.txAnswers.tail } k .ifTxError := by
  obtain ⟨rest, h⟩ := h
  simp [State.offer, h]

theorem State.offer_of_waits (k : OpKind) (r : Regs) (t : Bytes) (h : s.macWaits) :
    s.offer k r t = { s with txAnswers := s.txAnswers.tail, held := some { kind := k, regs := r, frame := t } } := by
  obtain ⟨rest, h⟩ := h
  simp [State.offer, h]

/-- The three ends of an operation (R8, R185, R186). -/
@[simp] theorem State.complete_drop (k : OpKind) (c : StatusCode) : s.complete k (.drop c) = s.close k c := rfl

@[simp] theorem State.complete_finish_none (k : OpKind) (r : Regs) :
    s.complete k (.finish r none) = State.close { s with regs := r } k .ok := rfl

@[simp] theorem State.complete_finish_some (k : OpKind) (r : Regs) (t : Bytes) :
    s.complete k (.finish r (some t)) = s.offer k r t := rfl

/-- Everything the end of an operation can leave, whatever handler it ends: a drop, a quiet commit, a commit with the frame
accepted, a transmit error, or an operation in progress. -/
theorem State.complete_cases (k : OpKind) (e : OpEnd) :
    (∃ c, e = .drop c ∧ s.complete k e = s.close k c) ∨
    (∃ r, e = .finish r none ∧ s.complete k e = State.close { s with regs := r } k .ok) ∨
    (∃ r t, e = .finish r (some t) ∧ s.macAccepts ∧
      s.complete k e = State.commitSent { s with txAnswers := s.txAnswers.tail } k r t) ∨
    (∃ r t, e = .finish r (some t) ∧ s.macRefuses ∧
      s.complete k e = State.close { s with txAnswers := s.txAnswers.tail } k .ifTxError) ∨
    (∃ r t, e = .finish r (some t) ∧ s.macWaits ∧
      s.complete k e =
        { s with txAnswers := s.txAnswers.tail, held := some { kind := k, regs := r, frame := t } }) := by
  rcases e with ⟨r, _ | t⟩ | c
  · exact .inr (.inl ⟨r, rfl, rfl⟩)
  · rcases s.offer_cases k r t with ⟨ha, h⟩ | ⟨ha, h⟩ | ⟨ha, h⟩
    · exact .inr (.inr (.inl ⟨r, t, rfl, ha, h⟩))
    · exact .inr (.inr (.inr (.inl ⟨r, t, rfl, ha, h⟩)))
    · exact .inr (.inr (.inr (.inr ⟨r, t, rfl, ha, h⟩)))
  · exact .inl ⟨c, rfl, rfl⟩

theorem State.commitSent_rx (r : Regs) (t : Bytes) :
    State.commitSent { s with txAnswers := s.txAnswers.tail } .rx r t = s.rxSent r t := by
  simp [State.commitSent, State.close, State.rxSent, inc, StatusCode.code]

theorem State.commitSent_cmd (r : Regs) (t : Bytes) :
    State.commitSent { s with txAnswers := s.txAnswers.tail } .cmd r t = s.cmdSent r t := by
  simp [State.commitSent, State.close, State.cmdSent, inc, StatusCode.code]

theorem State.commitSent_tick (r : Regs) (t : Bytes) (h : s.tickPend ≠ 0) :
    State.commitSent { s with txAnswers := s.txAnswers.tail } .tick r t = s.tickSent r t := by
  simp only [State.commitSent, State.close, State.tickSent, if_neg h]; rfl

end Sys2Proof.Machine
end

