-- ==== Sys2Proof/Laws/Engine.lean ====
section
/-! SUPPORT. What the arbiter hands the decoder always decodes, and which instruction it is. -/

namespace Sys2Proof.Machine

theorem be32_bytes32 (v : Word) : be32 (bytes32 v) 0 = v := by
  simp only [be32, be16, byteAt, bytes32, List.getD_cons_zero, List.getD_cons_succ, Nat.zero_add]
  ext i hi
  simp only [BitVec.getElem_append, BitVec.getElem_extractLsb']
  split <;> split <;> simp [BitVec.getElem_eq_testBit_toNat, BitVec.getLsbD] <;> congr 1 <;> omega

theorem dstate_ofCode_code (d : DState) : DState.ofCode (((d.code.setWidth 8 : Byte)).extractLsb' 0 3) = d := by
  cases d <;> decide

/-- A command in the command register decodes by its `CMD_OP` and carries its `CMD_ARG`. -/
theorem decode_command (p : Params) (r : Regs) (op : BitVec 8) (arg : BitVec 32) :
    decode p r .command (op :: bytes32 arg) = .ok (decodeCommand op arg) := by
  have h := be32_bytes32 arg
  simp only [bytes32] at h ⊢
  simp only [decode, h]

/-- A pending tick decodes by `DHCP_EN` and `DSTATE`. -/
theorem decode_tick (p : Params) (r : Regs) (en : Bool) (d : DState) :
    decode p r .tick [flagByte en, d.code.setWidth 8] = .ok (decodeTick en d) := by
  cases en <;> cases d <;> rfl

/-- The instruction that the arbiter's choice decodes to (60_exceptions.md R184). -/
theorem fetch_decodes (s : State) (port : Port) (bs : Bytes) (h : s.fetch = some (port, bs)) :
    ∃ i, decode s.params s.regs port bs = .ok i := by
  unfold State.fetch at h
  split at h
  · cases h; exact ⟨_, rfl⟩
  · split at h
    · cases h; exact ⟨_, decode_command _ _ _ _⟩
    · split at h
      · cases h; exact ⟨_, decode_tick _ _ _ _⟩
      · split at h
        · cases h
        · split at h
          · cases h; exact ⟨_, rfl⟩
          · cases h; exact ⟨_, rfl⟩

/-- No instruction faults or refuses: the engine has no fatal state (60_exceptions.md R199). -/
theorem exec_next (i : Instr) (s : State) : ∃ t, exec i s = .next t := by
  cases i <;> try exact ⟨_, rfl⟩
  · simp only [exec, execTick]; split; exact ⟨_, rfl⟩; split <;> exact ⟨_, rfl⟩
  · simp only [exec, execRx]; split <;> exact ⟨_, rfl⟩

end Sys2Proof.Machine
end

