-- ==== Sys2Proof/Laws/Emissions.lean ====
section
/-! SUPPORT. What a draw can give, how every instruction ends, and that the rows of `State.Emits` end by calling `Emit`. -/

namespace Sys2Proof.Machine

theorem satInc_toNat (v : Word) : (satInc v).toNat = min (v.toNat + 1) 0xFFFFFFFF := by
  have hv := v.isLt
  unfold satInc
  split
  · next h => subst h; decide
  · next h =>
    have : v.toNat ≠ 0xFFFFFFFF := fun e => h (BitVec.eq_of_toNat_eq (by simpa using e))
    simp; omega

theorem satInc_eq_of_toNat (v e : Word) (h : e.toNat = min (v.toNat + 1) 0xFFFFFFFF) : satInc v = e :=
  BitVec.eq_of_toNat_eq ((satInc_toNat v).trans h.symm)

/-- The model's draw gives the value and the state that `DrawGives` describes. -/
theorem State.drawGives_drawValue (s : State) : s.DrawGives s.drawValue s.drawn := by
  rcases h : s.draws with _ | ⟨v, rest⟩
  · exact .inr ⟨h, by simp [State.drawValue, h], by simp [State.drawn, h]⟩
  · exact .inl ⟨rest, by simp [State.drawValue, h], by simp [State.drawn, h]⟩

theorem State.DrawGives.drawValue_eq {s q : State} {x : Word} (h : s.DrawGives x q) : s.drawValue = x := by
  rcases h with ⟨rest, h, rfl⟩ | ⟨h, rfl, rfl⟩ <;> simp [State.drawValue, h]

theorem State.DrawGives.drawn_eq {s q : State} {x : Word} (h : s.DrawGives x q) : s.drawn = q := by
  rcases h with ⟨rest, h, rfl⟩ | ⟨h, rfl, rfl⟩ <;> simp [State.drawn, h]

/-- An emitting row changes nothing before its commit but the random source's queue. -/
theorem State.Emits.only_draws {s q : State} {i : Instr} {k : OpKind} {r : Regs} {f : Bytes} (h : s.Emits i q k r f) :
    q = { s with draws := q.draws, drawIndex := q.drawIndex } := by
  cases h <;> first
    | rfl
    | (rename_i hd _; rcases hd with ⟨_, _, rfl⟩ | ⟨_, _, rfl⟩ <;> rfl)

/-- An emitting row ends by offering its frame, with its register copy, to the transmit MAC (R185). -/
theorem State.Emits.exec_eq {s q : State} {i : Instr} {k : OpKind} {r : Regs} {f : Bytes} (h : s.Emits i q k r f) :
    exec i s = .next (q.complete k (.finish r (some f))) := by
  cases h with
  | cmdArpResolve ip _ hr => subst hr; rfl
  | tickInit x _ _ hd hr => obtain rfl := hd.drawValue_eq; obtain rfl := hd.drawn_eq; subst hr; rfl
  | tickInitReboot x _ _ hd hr => obtain rfl := hd.drawValue_eq; obtain rfl := hd.drawn_eq; subst hr; rfl
  | tickRequesting _ ht hc hr =>
    subst hr
    have : s.regs.tmo.toNat ≤ s.regs.age.elapsed.toNat := by simpa only [Regs.age, satInc_toNat] using ht
    simp only [exec, execTickRequesting, tickRequestingEnd, if_pos this, if_pos hc]
  | tickRebind _ e _ hi he h1 h2 h3 hr =>
    subst hr
    have hx : exec i s = .next (s.complete .tick (tickLeaseEnd s.params s.regs)) := by rcases hi with rfl | rfl | rfl <;> rfl
    rw [hx]
    simp only [tickLeaseEnd, Regs.age, satInc_eq_of_toNat _ _ he]
    rw [if_neg (by omega), if_pos ⟨h2, h3⟩]
  | tickRenew _ e _ hi he h1 h2 h3 h4 hr =>
    subst hr
    have hx : exec i s = .next (s.complete .tick (tickLeaseEnd s.params s.regs)) := by rcases hi with rfl | rfl | rfl <;> rfl
    rw [hx]
    simp only [tickLeaseEnd, Regs.age, satInc_eq_of_toNat _ _ he]
    rw [if_neg (by omega), if_neg (by omega), if_pos ⟨h3, h4⟩]
  | arpRequest e a _ h1 h2 hr =>
    subst hr
    simp only [exec, execArpRequest, arpRequestEnd]
    rw [if_neg (by rintro (h | h); exact h1 h; exact h h2)]
  | icmpEcho e src c rest h1 => simp only [exec, execIcmpEcho, icmpEchoEnd]; rw [if_neg h1]
  | dhcpOffer y o sv _ h1 h2 hr => subst hr; simp only [exec, execDhcpOffer, dhcpOfferEnd, h1]; rw [if_neg h2]

/-- Every instruction but RESET and READ either leaves the state (an RX with no frame) or completes an operation, after the random
source's draw if it makes one. -/
theorem exec_completes (i : Instr) (s : State) (hreset : i ≠ .reset) (hread : ∀ a, i ≠ .read a) :
    exec i s = .next s ∨ ∃ q k e, exec i s = .next (q.complete k e) ∧ (q = s ∨ q = s.drawn) := by
  cases i
  case reset => exact absurd rfl hreset
  case read a => exact absurd rfl (hread a)
  case rx =>
    simp only [exec, execRx]
    split
    · exact .inl rfl
    · exact .inr ⟨_, _, _, rfl, .inl rfl⟩
  case tick =>
    right
    simp only [exec, execTick]
    repeat' split
    all_goals first
      | exact ⟨_, _, _, rfl, .inl rfl⟩
      | exact ⟨_, _, _, rfl, .inr rfl⟩
  case tickInit => exact .inr ⟨_, _, _, rfl, .inr rfl⟩
  case tickInitReboot => exact .inr ⟨_, _, _, rfl, .inr rfl⟩
  all_goals exact .inr ⟨_, _, _, rfl, .inl rfl⟩

end Sys2Proof.Machine
end

