-- ==== Sys2Proof/Laws/Frames.lean ====
section
/-! SUPPORT. The length of everything the engine or the encoder builds, one lemma per builder (tagged @[simp]). -/

namespace Sys2Proof.Machine

@[simp] theorem zeros_length (n : Nat) : (zeros n).length = n := by simp [zeros]
@[simp] theorem bytes16_length (v : Half) : (bytes16 v).length = 2 := rfl
@[simp] theorem bytes32_length (v : Word) : (bytes32 v).length = 4 := rfl
@[simp] theorem bytes48_length (v : Mac) : (bytes48 v).length = 6 := rfl

/-- Writing a 2-byte field inside a unit keeps its length. -/
theorem putHalf_length (u : Bytes) (c : Nat) (v : Half) (h : c + 2 ≤ u.length) : (putHalf u c v).length = u.length := by
  simp [putHalf]; omega

@[simp] theorem ethHeader_length (d s : Mac) (t : Half) : (ethHeader d s t).length = 14 := rfl
@[simp] theorem arpPacket_length (o : Half) (sha : Mac) (spa : Ip) (tha : Mac) (tpa : Ip) :
    (arpPacket o sha spa tha tpa).length = 28 := rfl
@[simp] theorem ipHeaderZero_length (p : Params) (proto : Byte) (src dst : Ip) (n : Nat) :
    (ipHeaderZero p proto src dst n).length = 20 := rfl

@[simp] theorem ipDatagram_length (p : Params) (proto : Byte) (src dst : Ip) (payload : Bytes) :
    (ipDatagram p proto src dst payload).length = 20 + payload.length := by
  rw [ipDatagram, insertChecksum, List.length_append, putHalf_length _ _ _ (by simp), ipHeaderZero_length]

@[simp] theorem icmpMessage_length (type code : Byte) (rest : Bytes) :
    (icmpMessage type code rest).length = 4 + rest.length := by
  rw [icmpMessage, insertChecksum, putHalf_length _ _ _ (by simp)]; simp; omega

@[simp] theorem udpZero_length (sport dport : Half) (data : Bytes) :
    (udpZero sport dport data).length = 8 + data.length := by simp [udpZero]; omega

@[simp] theorem udpDatagram_length (src dst : Ip) (sport dport : Half) (data : Bytes) :
    (udpDatagram src dst sport dport data).length = 8 + data.length := by
  simp only [udpDatagram]; rw [putHalf_length _ _ _ (by simp), udpZero_length]

@[simp] theorem ethFrame_length (r : Regs) (d : Mac) (payload : Bytes) :
    (ethFrame r d payload).length = 14 + payload.length := by simp [ethFrame]

@[simp] theorem arpReplyFrame_length (r : Regs) (e sha : Mac) (spa : Ip) : (arpReplyFrame r e sha spa).length = 42 := rfl
@[simp] theorem arpRequestFrame_length (r : Regs) (ip : Ip) : (arpRequestFrame r ip).length = 42 := rfl

@[simp] theorem dhcpMsg_length (r : Regs) (c : Ip) (o : Bytes) : (dhcpMsg r c o).length = 240 + o.length := by
  simp only [dhcpMsg, List.length_append, bytes32_length, bytes48_length, zeros_length, List.length_cons, List.length_nil]

end Sys2Proof.Machine

namespace Sys2Proof

open Machine

@[simp] theorem encodeEth_length (s : Mac) (t : Half) (b : Bytes) : (encodeEth s t b).length = 14 + b.length := by
  simp [encodeEth]
@[simp] theorem encodeIp_length (p : Params) (e : Mac) (proto : Byte) (src dst : Ip) (b : Bytes) :
    (encodeIp p e proto src dst b).length = 34 + b.length := by simp [encodeIp]; omega
@[simp] theorem encodeUdp_length (p : Params) (sport dport : Half) (d : Bytes) :
    (encodeUdp p sport dport d).length = 42 + d.length := by simp [encodeUdp]; omega
@[simp] theorem encodeDhcp_length (p : Params) (d : Bytes) : (encodeDhcp p d).length = 42 + d.length := by
  simp [encodeDhcp]
@[simp] theorem serverMsg_length (r : Regs) (y : Ip) (o : Bytes) : (serverMsg r y o).length = 240 + o.length := by
  simp only [serverMsg, List.length_append, bytes32_length, bytes48_length, zeros_length, List.length_cons, List.length_nil]

theorem encodeOption_length_le (c : Byte) (v : Option Word) : (encodeOption c v).length ≤ 6 := by
  cases v <;> simp [encodeOption]
theorem encodeOptions_length_le (m : Byte) (o : DhcpOpts) : (encodeOptions m o).length ≤ 28 := by
  have h1 := encodeOption_length_le 51 o.lease
  have h2 := encodeOption_length_le 54 o.server
  have h3 := encodeOption_length_le 58 o.t1
  have h4 := encodeOption_length_le 59 o.t2
  simp only [encodeOptions, List.length_append, List.length_cons, List.length_nil]; omega

end Sys2Proof
end

