-- ==== Sys2Proof/Laws/PerInstr.lean ====
section
/-! SUPPORT. A property of every instruction as syntax, one lemma per constructor. -/

namespace Sys2Proof.Laws.EncodedLength

open Sys2Proof Sys2Proof.Machine

/-- The encoder writes no frame longer than `MAX_FRAME_LEN` (00_scope.md R5, 30_encoding.md R74), but for ETH_OVERSIZE, which is
the class of the longer ones (41_ethernet_classifier.md R87). -/
def Statement (i : Instr) : Prop :=
  ∀ (p : Params) (r : Regs), i.WellFormed = true → (encode p r i).1 = .frame →
    (encode p r i).2.length ≤ Config.maxFrameLen ∨ ∃ n, i = .ethOversize n

theorem of_le {i : Instr}
    (h : ∀ (p : Params) (r : Regs), i.WellFormed = true → (encode p r i).2.length ≤ Config.maxFrameLen) : Statement i :=
  fun p r hw _ => .inl (h p r hw)

theorem of_port {i : Instr} (h : ∀ (p : Params) (r : Regs), (encode p r i).1 ≠ .frame) : Statement i :=
  fun p r _ hf => absurd hf (h p r)

theorem reset : Statement (.reset) := of_port (by intro p r h; cases h)

theorem cmd : Statement (.cmd) := of_port (by intro p r h; cases h)

theorem tick : Statement (.tick) := of_port (by intro p r h; cases h)

theorem rx : Statement (.rx) := of_port (by intro p r h; cases h)

theorem read (addr : BitVec 8) : Statement (.read addr) := of_port (by intro p r h; cases h)

theorem cmdNop : Statement (.cmdNop) := of_port (by intro p r h; cases h)

theorem cmdDhcpRestart : Statement (.cmdDhcpRestart) := of_port (by intro p r h; cases h)

theorem cmdArpResolve (ip : Ip) : Statement (.cmdArpResolve ip) := of_port (by intro p r h; cases h)

theorem cmdReserved (op : BitVec 8) : Statement (.cmdReserved op) := of_port (by intro p r h; cases h)

theorem tickStatic : Statement (.tickStatic) := of_port (by intro p r h; cases h)

theorem tickInit : Statement (.tickInit) := of_port (by intro p r h; cases h)

theorem tickSelecting : Statement (.tickSelecting) := of_port (by intro p r h; cases h)

theorem tickRequesting : Statement (.tickRequesting) := of_port (by intro p r h; cases h)

theorem tickBound : Statement (.tickBound) := of_port (by intro p r h; cases h)

theorem tickRenewing : Statement (.tickRenewing) := of_port (by intro p r h; cases h)

theorem tickRebinding : Statement (.tickRebinding) := of_port (by intro p r h; cases h)

theorem tickInitReboot : Statement (.tickInitReboot) := of_port (by intro p r h; cases h)

theorem tickRebooting : Statement (.tickRebooting) := of_port (by intro p r h; cases h)

theorem ethRunt (len : Nat) : Statement (.ethRunt len) := of_le (by
  intro p r h
  simp only [Instr.WellFormed, decide_eq_true_eq] at h
  simp [encode, Config.maxFrameLen, Config.mtu]
  omega)

theorem ethOversize (len : Nat) : Statement (.ethOversize len) := fun _ _ _ _ => .inr ⟨len, rfl⟩

theorem eth8023 (len : Half) : Statement (.eth8023 len) := of_le (by intro p r _; simp [encode, Config.maxFrameLen, Config.mtu])

theorem ethArp (ethSrc : Mac) (pkt : Bytes) : Statement (.ethArp ethSrc pkt) := of_le (by
  intro p r h
  simp only [Instr.WellFormed, decide_eq_true_eq] at h
  simp only [Config.mtu] at h
  simp [encode, Config.maxFrameLen, Config.mtu]
  omega)

theorem ethIpv4 (ethSrc : Mac) (dgram : Bytes) : Statement (.ethIpv4 ethSrc dgram) := of_le (by
  intro p r h
  simp only [Instr.WellFormed, decide_eq_true_eq] at h
  simp only [Config.mtu] at h
  simp [encode, Config.maxFrameLen, Config.mtu]
  omega)

theorem ethOther (etherType : Half) : Statement (.ethOther etherType) := of_le (by intro p r _; simp [encode, Config.maxFrameLen, Config.mtu])

theorem arpRequest (ethSrc : Mac) (a : ArpAddrs) : Statement (.arpRequest ethSrc a) := of_le (by intro p r _; simp [encode, Config.maxFrameLen, Config.mtu])

theorem arpReply (a : ArpAddrs) : Statement (.arpReply a) := of_le (by intro p r _; simp [encode, Config.maxFrameLen, Config.mtu])

theorem arpBadOper (oper : Half) : Statement (.arpBadOper oper) := of_le (by intro p r _; simp [encode, Config.maxFrameLen, Config.mtu])

theorem ipIcmp (ethSrc : Mac) (src dst : Ip) (msg : Bytes) : Statement (.ipIcmp ethSrc src dst msg) := of_le (by
  intro p r h
  simp only [Instr.WellFormed, decide_eq_true_eq] at h
  simp only [Config.mtu] at h
  simp [encode, Config.maxFrameLen, Config.mtu]
  omega)

theorem ipUdp (src dst : Ip) (payload : Bytes) : Statement (.ipUdp src dst payload) := of_le (by
  intro p r h
  simp only [Instr.WellFormed, decide_eq_true_eq] at h
  simp only [Config.mtu] at h
  simp [encode, Config.maxFrameLen, Config.mtu]
  omega)

theorem ipTcp (segment : Bytes) : Statement (.ipTcp segment) := of_le (by
  intro p r h
  simp only [Instr.WellFormed, decide_eq_true_eq] at h
  simp only [Config.mtu] at h
  simp [encode, Config.maxFrameLen, Config.mtu]
  omega)

theorem ipOther (proto : Byte) : Statement (.ipOther proto) := of_le (by intro p r _; simp [encode, Config.maxFrameLen, Config.mtu])

theorem icmpEcho (ethSrc : Mac) (src : Ip) (code : Byte) (rest : Bytes) : Statement (.icmpEcho ethSrc src code rest) := of_le (by
  intro p r h
  simp only [Instr.WellFormed, Bool.and_eq_true, decide_eq_true_eq] at h
  have h2 := h.2
  simp only [Config.mtu] at h2
  simp [encode, Config.maxFrameLen, Config.mtu]
  omega)

theorem icmpOther (type : Byte) : Statement (.icmpOther type) := of_le (by intro p r _; simp [encode, Config.maxFrameLen, Config.mtu])

theorem udpDhcp (msg : Bytes) : Statement (.udpDhcp msg) := of_le (by
  intro p r h
  simp only [Instr.WellFormed, decide_eq_true_eq] at h
  simp only [Config.mtu] at h
  simp [encode, Config.maxFrameLen, Config.mtu]
  omega)

theorem udpOther (sport dport : Half) : Statement (.udpOther sport dport) := of_le (by intro p r _; simp [encode, Config.maxFrameLen, Config.mtu])

theorem tcpInspect (h : TcpHeader) : Statement (.tcpInspect h) := of_le (by
  intro p r _
  have h4 := (h.offFlags.extractLsb' 12 4).isLt
  simp only [encode, encodeIp_length, encodeTcp, List.length_append, bytes16_length, bytes32_length, zeros_length,
    Config.maxFrameLen, Config.mtu]
  omega)

theorem dhcpOffer (yiaddr : Ip) (opts : DhcpOpts) : Statement (.dhcpOffer yiaddr opts) := of_le (by
  intro p r _
  have ho := encodeOptions_length_le 2 opts
  simp only [encode, encodeDhcp_length, serverMsg_length, Config.maxFrameLen, Config.mtu]
  omega)

theorem dhcpAckBind (yiaddr : Ip) (opts : DhcpOpts) : Statement (.dhcpAckBind yiaddr opts) := of_le (by
  intro p r _
  have ho := encodeOptions_length_le 5 opts
  simp only [encode, encodeDhcp_length, serverMsg_length, Config.maxFrameLen, Config.mtu]
  omega)

theorem dhcpAckExtend (yiaddr : Ip) (opts : DhcpOpts) : Statement (.dhcpAckExtend yiaddr opts) := of_le (by
  intro p r _
  have ho := encodeOptions_length_le 5 opts
  simp only [encode, encodeDhcp_length, serverMsg_length, Config.maxFrameLen, Config.mtu]
  omega)

theorem dhcpNak : Statement (.dhcpNak) := of_le (by
  intro p r _
  have ho := encodeOptions_length_le 6 noOpts
  simp only [encode, encodeDhcp_length, serverMsg_length, Config.maxFrameLen, Config.mtu]
  omega)

theorem dhcpOther (msgType : Byte) : Statement (.dhcpOther msgType) := of_le (by
  intro p r _
  have ho := encodeOptions_length_le msgType noOpts
  simp only [encode, encodeDhcp_length, serverMsg_length, Config.maxFrameLen, Config.mtu]
  omega)

end Sys2Proof.Laws.EncodedLength
end

