-- ==== Sys2Proof/Machine/Script.lean ====
section
/-! DEFINITION. The event scripts of test programs (30_encoding.md R76), as moves of the agents: each line is followed by the
engine's turn, so that it runs to completion before the next one. The `=>` lines are expectations, not events. -/

namespace Sys2Proof.Machine

/-- The lines of R76 that are events. `CMD NOP`, `RESTART` and `RESOLVE` are `cmdRaw` with `CMD_OP` 0, 1 and 2. -/
inductive ScriptLine where
  | config (c : Pins)
  | reset
  | tick
  | ticks (n : Nat)
  | rx (bytes : Bytes)
  | rxErr (bytes : Bytes)
  | cmdRaw (op : BitVec 8) (arg : BitVec 32)
  | draw (v : BitVec 32)
  | txErr
  | read (addr : BitVec 8)
  deriving DecidableEq, Repr

/-- The moves of one line (R76). -/
def ScriptLine.events : ScriptLine → List EnvEvent
  | .config c => [.setPins c]
  | .reset => [.assertReset, .deassertReset]
  | .tick => [.tickPulse, .engine]
  | .ticks n => (List.replicate n [EnvEvent.tickPulse, .engine]).flatten
  | .rx bytes => [.frameArrives { bytes := bytes, err := false }, .engine]
  | .rxErr bytes => [.frameArrives { bytes := bytes, err := true }, .engine]
  | .cmdRaw op arg => [.commandWrite op arg, .engine]
  | .draw v => [.draw v]
  | .txErr => [.txAnswer .error]
  | .read addr => [.statusRead addr]

/-- A program is the moves of its lines in order (D37: a script of inputs is the block's only program). -/
def scriptEvents (lines : List ScriptLine) : List EnvEvent := (lines.map ScriptLine.events).flatten

end Sys2Proof.Machine
end

