-- ==== Sys2Proof/Tests/Slice0.lean ====
section
/-! SUPPORT. Tests: ill-formed terms refused, every row's decoding from bytes written out from the spec's encodings
(95_test_vectors.md names the vectors), one step of every instruction, and for every statement with hypotheses a witness. -/

namespace Sys2Proof.Tests

set_option Elab.async false

open Sys2Proof Sys2Proof.Machine

/-! ## Well-formedness: each check refuses an ill-formed term and takes its boundary -/

theorem test_wf_cmdReserved : Instr.WellFormed (.cmdReserved 2) = false ∧ Instr.WellFormed (.cmdReserved 3) = true := by decide +kernel
theorem test_wf_ethRunt : Instr.WellFormed (.ethRunt 14) = false ∧ Instr.WellFormed (.ethRunt 13) = true := by decide +kernel
theorem test_wf_ethOversize : Instr.WellFormed (.ethOversize 1514) = false ∧ Instr.WellFormed (.ethOversize 1515) = true := by decide +kernel
theorem test_wf_eth8023 : Instr.WellFormed (.eth8023 0x05DD) = false ∧ Instr.WellFormed (.eth8023 0x05DC) = true := by decide +kernel
theorem test_wf_ethArp : Instr.WellFormed (.ethArp 0 (zeros 1501)) = false ∧ Instr.WellFormed (.ethArp 0 (zeros 1500)) = true := by decide +kernel
theorem test_wf_ethIpv4 : Instr.WellFormed (.ethIpv4 0 (zeros 1501)) = false ∧ Instr.WellFormed (.ethIpv4 0 (zeros 1500)) = true := by decide +kernel
theorem test_wf_ipIcmp : Instr.WellFormed (.ipIcmp 0 0 0 (zeros 1481)) = false ∧ Instr.WellFormed (.ipIcmp 0 0 0 (zeros 1480)) = true := by decide +kernel
theorem test_wf_ipUdp : Instr.WellFormed (.ipUdp 0 0 (zeros 1481)) = false ∧ Instr.WellFormed (.ipUdp 0 0 (zeros 1480)) = true := by decide +kernel
theorem test_wf_ipTcp : Instr.WellFormed (.ipTcp (zeros 1481)) = false ∧ Instr.WellFormed (.ipTcp (zeros 1480)) = true := by decide +kernel
theorem test_wf_icmpEcho_short : Instr.WellFormed (.icmpEcho 0 0 0 (zeros 3)) = false ∧ Instr.WellFormed (.icmpEcho 0 0 0 (zeros 4)) = true := by decide +kernel
theorem test_wf_icmpEcho_long : Instr.WellFormed (.icmpEcho 0 0 0 (zeros 1477)) = false ∧ Instr.WellFormed (.icmpEcho 0 0 0 (zeros 1476)) = true := by decide +kernel
theorem test_wf_icmpOther : Instr.WellFormed (.icmpOther 8) = false ∧ Instr.WellFormed (.icmpOther 0) = true := by decide +kernel
theorem test_wf_udpDhcp : Instr.WellFormed (.udpDhcp (zeros 1473)) = false ∧ Instr.WellFormed (.udpDhcp (zeros 1472)) = true := by decide +kernel
theorem test_wf_udpOther : Instr.WellFormed (.udpOther 67 68) = false ∧ Instr.WellFormed (.udpOther 68 67) = true := by decide +kernel
theorem test_wf_ethOther :
    Instr.WellFormed (.ethOther 0x05DC) = false ∧ Instr.WellFormed (.ethOther 0x0800) = false ∧
    Instr.WellFormed (.ethOther 0x0806) = false ∧ Instr.WellFormed (.ethOther 0x05DD) = true := by decide
theorem test_wf_arpBadOper :
    Instr.WellFormed (.arpBadOper 1) = false ∧ Instr.WellFormed (.arpBadOper 2) = false ∧
    Instr.WellFormed (.arpBadOper 0) = true := by decide
theorem test_wf_ipOther :
    Instr.WellFormed (.ipOther 1) = false ∧ Instr.WellFormed (.ipOther 6) = false ∧
    Instr.WellFormed (.ipOther 17) = false ∧ Instr.WellFormed (.ipOther 2) = true := by decide
theorem test_wf_tcpInspect :
    Instr.WellFormed (.tcpInspect ⟨0, 0, 0, 0, 0x4FFF⟩) = false ∧
    Instr.WellFormed (.tcpInspect ⟨0, 0, 0, 0, 0x5000⟩) = true := by decide

/-! ## Frames, byte by byte (95_test_vectors.md) -/

/-- Vector E1. -/
def runtFrame : Bytes := [0x02, 0x00, 0x00, 0x00, 0x00, 0x02, 0x02, 0x00, 0x00, 0x00, 0x00, 0x01, 0x08]

/-- Vector E2. -/
def ipShortFrame : Bytes := [0x02, 0x00, 0x00, 0x00, 0x00, 0x02, 0x02, 0x00, 0x00, 0x00, 0x00, 0x01, 0x08, 0x00]

/-- Vector E3. -/
def lengthFrame : Bytes := [0x02, 0x00, 0x00, 0x00, 0x00, 0x02, 0x02, 0x00, 0x00, 0x00, 0x00, 0x01, 0x05, 0xDC] ++
  zeros 46

/-- Vector E4. -/
def otherTypeFrame : Bytes := [0x02, 0x00, 0x00, 0x00, 0x00, 0x02, 0x02, 0x00, 0x00, 0x00, 0x00, 0x01, 0x05, 0xDD] ++
  zeros 46

/-- Vector E7. -/
def oversizeFrame : Bytes := [0x02, 0x00, 0x00, 0x00, 0x00, 0x02, 0x02, 0x00, 0x00, 0x00, 0x00, 0x01, 0x08] ++ zeros
  1502

/-- Vector A1. -/
def arpShortFrame : Bytes := [0xFF, 0xFF, 0xFF, 0xFF, 0xFF, 0xFF, 0x02, 0x00, 0x00, 0x00, 0x00, 0x01, 0x08, 0x06,
  0x00, 0x01, 0x08, 0x00, 0x06, 0x04, 0x00, 0x01, 0x02, 0x00, 0x00, 0x00, 0x00, 0x01, 0x0A, 0x00, 0x00, 0x01, 0x00,
  0x00, 0x00, 0x00, 0x00, 0x00, 0x0A, 0x00, 0x00]

/-- Vector P2. -/
def arpRequestIn : Bytes := [0xFF, 0xFF, 0xFF, 0xFF, 0xFF, 0xFF, 0x02, 0x00, 0x00, 0x00, 0x00, 0x01, 0x08, 0x06,
  0x00, 0x01, 0x08, 0x00, 0x06, 0x04, 0x00, 0x01, 0x02, 0x00, 0x00, 0x00, 0x00, 0x01, 0x0A, 0x00, 0x00, 0x01, 0x00,
  0x00, 0x00, 0x00, 0x00, 0x00, 0x0A, 0x00, 0x00, 0x02]

/-- Vector A10. -/
def arpReplyIn : Bytes := [0x02, 0x00, 0x00, 0x00, 0x00, 0x02, 0x02, 0x00, 0x00, 0x00, 0x00, 0x01, 0x08, 0x06, 0x00,
  0x01, 0x08, 0x00, 0x06, 0x04, 0x00, 0x02, 0x02, 0x00, 0x00, 0x00, 0x00, 0x01, 0x0A, 0x00, 0x00, 0x01, 0x02, 0x00,
  0x00, 0x00, 0x00, 0x02, 0x0A, 0x00, 0x00, 0x02]

/-- Vector A8. -/
def arpRarpFrame : Bytes := [0xFF, 0xFF, 0xFF, 0xFF, 0xFF, 0xFF, 0x02, 0x00, 0x00, 0x00, 0x00, 0x01, 0x08, 0x06,
  0x00, 0x01, 0x08, 0x00, 0x06, 0x04, 0x00, 0x03, 0x02, 0x00, 0x00, 0x00, 0x00, 0x01, 0x0A, 0x00, 0x00, 0x01, 0x00,
  0x00, 0x00, 0x00, 0x00, 0x00, 0x0A, 0x00, 0x00, 0x02]

/-- Vector I8. -/
def notForUsFrame : Bytes := [0x02, 0x00, 0x00, 0x00, 0x00, 0x02, 0x02, 0x00, 0x00, 0x00, 0x00, 0x01, 0x08, 0x00,
  0x45, 0x00, 0x00, 0x20, 0x00, 0x00, 0x40, 0x00, 0x40, 0x01, 0x26, 0xDA, 0x0A, 0x00, 0x00, 0x01, 0x0A, 0x00, 0x00,
  0x03, 0x08, 0x00, 0x21, 0x04, 0x12, 0x34, 0x00, 0x01, 0x61, 0x62, 0x63, 0x64]

/-- Vector I13. -/
def igmpFrame : Bytes := [0x02, 0x00, 0x00, 0x00, 0x00, 0x02, 0x02, 0x00, 0x00, 0x00, 0x00, 0x01, 0x08, 0x00, 0x45,
  0x00, 0x00, 0x1C, 0x00, 0x00, 0x40, 0x00, 0x40, 0x02, 0x26, 0xDE, 0x0A, 0x00, 0x00, 0x01, 0x0A, 0x00, 0x00, 0x02,
  0x11, 0x64, 0xEE, 0x9B, 0x00, 0x00, 0x00, 0x00]

/-- Vector M1. -/
def icmpShortFrame : Bytes := [0x02, 0x00, 0x00, 0x00, 0x00, 0x02, 0x02, 0x00, 0x00, 0x00, 0x00, 0x01, 0x08, 0x00,
  0x45, 0x00, 0x00, 0x18, 0x00, 0x00, 0x40, 0x00, 0x40, 0x01, 0x26, 0xE3, 0x0A, 0x00, 0x00, 0x01, 0x0A, 0x00, 0x00,
  0x02, 0x08, 0x00, 0xF7, 0xFF]

/-- Vector P6. -/
def echoFrame : Bytes := [0x02, 0x00, 0x00, 0x00, 0x00, 0x02, 0x02, 0x00, 0x00, 0x00, 0x00, 0x01, 0x08, 0x00, 0x45,
  0x00, 0x00, 0x20, 0x00, 0x00, 0x40, 0x00, 0x40, 0x01, 0x26, 0xDB, 0x0A, 0x00, 0x00, 0x01, 0x0A, 0x00, 0x00, 0x02,
  0x08, 0x00, 0x21, 0x04, 0x12, 0x34, 0x00, 0x01, 0x61, 0x62, 0x63, 0x64]

/-- Vector M3. -/
def echoReplyIn : Bytes := [0x02, 0x00, 0x00, 0x00, 0x00, 0x02, 0x02, 0x00, 0x00, 0x00, 0x00, 0x01, 0x08, 0x00, 0x45,
  0x00, 0x00, 0x20, 0x00, 0x00, 0x40, 0x00, 0x40, 0x01, 0x26, 0xDB, 0x0A, 0x00, 0x00, 0x01, 0x0A, 0x00, 0x00, 0x02,
  0x00, 0x00, 0x29, 0x04, 0x12, 0x34, 0x00, 0x01, 0x61, 0x62, 0x63, 0x64]

/-- Vector U1. -/
def udpShortFrame : Bytes := [0x02, 0x00, 0x00, 0x00, 0x00, 0x02, 0x02, 0x00, 0x00, 0x00, 0x00, 0x01, 0x08, 0x00,
  0x45, 0x00, 0x00, 0x1A, 0x00, 0x00, 0x40, 0x00, 0x40, 0x11, 0x26, 0xD1, 0x0A, 0x00, 0x00, 0x01, 0x0A, 0x00, 0x00,
  0x02, 0x00, 0x35, 0x00, 0x35, 0x00, 0x06]

/-- Vector U7. -/
def udpDnsFrame : Bytes := [0x02, 0x00, 0x00, 0x00, 0x00, 0x02, 0x02, 0x00, 0x00, 0x00, 0x00, 0x01, 0x08, 0x00, 0x45,
  0x00, 0x00, 0x20, 0x00, 0x00, 0x40, 0x00, 0x40, 0x11, 0x26, 0xCB, 0x0A, 0x00, 0x00, 0x01, 0x0A, 0x00, 0x00, 0x02,
  0x03, 0xE8, 0x00, 0x35, 0x00, 0x0C, 0x00, 0x00, 0x01, 0x02, 0x03, 0x04]

/-- Vector T2. -/
def tcpShortFrame : Bytes := [0x02, 0x00, 0x00, 0x00, 0x00, 0x02, 0x02, 0x00, 0x00, 0x00, 0x00, 0x01, 0x08, 0x00,
  0x45, 0x00, 0x00, 0x28, 0x00, 0x00, 0x40, 0x00, 0x40, 0x06, 0x26, 0xCE, 0x0A, 0x00, 0x00, 0x01, 0x0A, 0x00, 0x00,
  0x02, 0xC0, 0x00, 0x00, 0x50, 0x01, 0x02, 0x03, 0x04, 0x00, 0x00, 0x00, 0x00, 0x40, 0x02, 0xFF, 0xFF, 0x00, 0x00,
  0x00, 0x00]

/-- Vector T4. -/
def tcpSynFrame : Bytes := [0x02, 0x00, 0x00, 0x00, 0x00, 0x02, 0x02, 0x00, 0x00, 0x00, 0x00, 0x01, 0x08, 0x00, 0x45,
  0x00, 0x00, 0x28, 0x00, 0x00, 0x40, 0x00, 0x40, 0x06, 0x26, 0xCE, 0x0A, 0x00, 0x00, 0x01, 0x0A, 0x00, 0x00, 0x02,
  0xC0, 0x00, 0x00, 0x50, 0x01, 0x02, 0x03, 0x04, 0x00, 0x00, 0x00, 0x00, 0x50, 0x02, 0xFF, 0xFF, 0x00, 0x00, 0x00,
  0x00]

/-- Vector OFFER(0x11223344) of section 0. -/
def offerFrame : Bytes := [0xFF, 0xFF, 0xFF, 0xFF, 0xFF, 0xFF, 0x02, 0x00, 0x00, 0x00, 0x00, 0x01, 0x08, 0x00, 0x45,
  0x00, 0x01, 0x22, 0x00, 0x00, 0x40, 0x00, 0x40, 0x11, 0x2F, 0xCB, 0x0A, 0x00, 0x00, 0x01, 0xFF, 0xFF, 0xFF, 0xFF,
  0x00, 0x43, 0x00, 0x44, 0x01, 0x0E, 0x8D, 0x48, 0x02, 0x01, 0x06, 0x00, 0x11, 0x22, 0x33, 0x44] ++ zeros 8 ++
  [0x0A, 0x00, 0x00, 0x32] ++ zeros 8 ++ [0x02, 0x00, 0x00, 0x00, 0x00, 0x02] ++ zeros 202 ++ [0x63, 0x82, 0x53,
  0x63, 0x35, 0x01, 0x02, 0x36, 0x04, 0x0A, 0x00, 0x00, 0x01, 0x33, 0x04, 0x00, 0x00, 0x0E, 0x10, 0x01, 0x04, 0xFF,
  0xFF, 0xFF, 0x00, 0xFF]

/-- Vector ACK(0x11223344) of section 0. -/
def ackFrame : Bytes := [0xFF, 0xFF, 0xFF, 0xFF, 0xFF, 0xFF, 0x02, 0x00, 0x00, 0x00, 0x00, 0x01, 0x08, 0x00, 0x45,
  0x00, 0x01, 0x22, 0x00, 0x00, 0x40, 0x00, 0x40, 0x11, 0x2F, 0xCB, 0x0A, 0x00, 0x00, 0x01, 0xFF, 0xFF, 0xFF, 0xFF,
  0x00, 0x43, 0x00, 0x44, 0x01, 0x0E, 0x8A, 0x48, 0x02, 0x01, 0x06, 0x00, 0x11, 0x22, 0x33, 0x44] ++ zeros 8 ++
  [0x0A, 0x00, 0x00, 0x32] ++ zeros 8 ++ [0x02, 0x00, 0x00, 0x00, 0x00, 0x02] ++ zeros 202 ++ [0x63, 0x82, 0x53,
  0x63, 0x35, 0x01, 0x05, 0x36, 0x04, 0x0A, 0x00, 0x00, 0x01, 0x33, 0x04, 0x00, 0x00, 0x0E, 0x10, 0x01, 0x04, 0xFF,
  0xFF, 0xFF, 0x00, 0xFF]

/-- Vector NAK(0x11223344) of section 0 with the checksum 0xA2A1 stated there, which is that of `yiaddr` 10.0.0.50, as in Program 4. -/
def nakFrame : Bytes := [0xFF, 0xFF, 0xFF, 0xFF, 0xFF, 0xFF, 0x02, 0x00, 0x00, 0x00, 0x00, 0x01, 0x08, 0x00, 0x45,
  0x00, 0x01, 0x16, 0x00, 0x00, 0x40, 0x00, 0x40, 0x11, 0x2F, 0xD7, 0x0A, 0x00, 0x00, 0x01, 0xFF, 0xFF, 0xFF, 0xFF,
  0x00, 0x43, 0x00, 0x44, 0x01, 0x02, 0xA2, 0xA1, 0x02, 0x01, 0x06, 0x00, 0x11, 0x22, 0x33, 0x44] ++ zeros 8 ++
  [0x0A, 0x00, 0x00, 0x32] ++ zeros 8 ++ [0x02, 0x00, 0x00, 0x00, 0x00, 0x02] ++ zeros 202 ++ [0x63, 0x82, 0x53,
  0x63, 0x35, 0x01, 0x06, 0x36, 0x04, 0x0A, 0x00, 0x00, 0x01, 0xFF]

/-- Vector P3, the frame sent. -/
def discoverOut : Bytes := [0xFF, 0xFF, 0xFF, 0xFF, 0xFF, 0xFF, 0x02, 0x00, 0x00, 0x00, 0x00, 0x02, 0x08, 0x00, 0x45,
  0x00, 0x01, 0x10, 0x00, 0x00, 0x40, 0x00, 0x40, 0x11, 0x39, 0xDE, 0x00, 0x00, 0x00, 0x00, 0xFF, 0xFF, 0xFF, 0xFF,
  0x00, 0x44, 0x00, 0x43, 0x00, 0xFC, 0x42, 0x20, 0x01, 0x01, 0x06, 0x00, 0x11, 0x22, 0x33, 0x44, 0x00, 0x00, 0x80]
  ++ zeros 17 ++ [0x02, 0x00, 0x00, 0x00, 0x00, 0x02] ++ zeros 202 ++ [0x63, 0x82, 0x53, 0x63, 0x35, 0x01, 0x01,
  0xFF]

/-- Vector P2, the frame sent. -/
def arpReplyOut : Bytes := [0x02, 0x00, 0x00, 0x00, 0x00, 0x01, 0x02, 0x00, 0x00, 0x00, 0x00, 0x02, 0x08, 0x06, 0x00,
  0x01, 0x08, 0x00, 0x06, 0x04, 0x00, 0x02, 0x02, 0x00, 0x00, 0x00, 0x00, 0x02, 0x0A, 0x00, 0x00, 0x02, 0x02, 0x00,
  0x00, 0x00, 0x00, 0x01, 0x0A, 0x00, 0x00, 0x01]

/-- Vector P6, the frame sent. -/
def echoOut : Bytes := [0x02, 0x00, 0x00, 0x00, 0x00, 0x01, 0x02, 0x00, 0x00, 0x00, 0x00, 0x02, 0x08, 0x00, 0x45,
  0x00, 0x00, 0x20, 0x00, 0x00, 0x40, 0x00, 0x40, 0x01, 0x26, 0xDB, 0x0A, 0x00, 0x00, 0x02, 0x0A, 0x00, 0x00, 0x01,
  0x00, 0x00, 0x29, 0x04, 0x12, 0x34, 0x00, 0x01, 0x61, 0x62, 0x63, 0x64]

/-- Vector A14, the frame sent. -/
def arpRequestOut : Bytes := [0xFF, 0xFF, 0xFF, 0xFF, 0xFF, 0xFF, 0x02, 0x00, 0x00, 0x00, 0x00, 0x02, 0x08, 0x06,
  0x00, 0x01, 0x08, 0x00, 0x06, 0x04, 0x00, 0x01, 0x02, 0x00, 0x00, 0x00, 0x00, 0x02, 0x0A, 0x00, 0x00, 0x02, 0x00,
  0x00, 0x00, 0x00, 0x00, 0x00, 0x0A, 0x00, 0x00, 0x01]

/-- Configuration D of 95_test_vectors.md section 0: the DHCP client, no remembered lease. -/
def dhcpPins : Pins := { Pins.static with cfgIp := 0, cfgDhcpEn := true }

/-- Configuration R: a remembered lease of 10.0.0.50 from 10.0.0.1. -/
def rebootPins : Pins :=
  { dhcpPins with cfgIp := 0x0A000032, cfgHasLease := true, cfgLeaseServer := 0x0A000001 }

/-- State D0. -/
def dhcpReset : State := .afterReset dhcpPins .vectors

/-- The registers of D0 with the client in a state, its transaction id that of the vectors. -/
def client (d : DState) : Regs := { Regs.atReset dhcpPins with xid := 0x11223344, dstate := d }

/-- The registers of D3 (a lease of 3600 s held) with the client in a state of the lease. -/
def leased (d : DState) (elapsed : Word) : Regs :=
  { client d with
    myIp := 0x0A000032, dhAddr := 0x0A000032, serverId := 0x0A000001, lease := 3600, t1 := 1800, t2 := 3150
    elapsed := elapsed }

/-- A state with these registers and one pending tick. -/
def ticking (r : Regs) : State := { dhcpReset with regs := r, tickPend := 1 }

/-- The static state S0 with a frame received. -/
def receiving (f : Bytes) : State := { State.reset with rxFifo := [⟨f, false⟩] }

/-- The next state, if the outcome is one. -/
def after (o : Out State) : Option State :=
  match o with
  | .next t => some t
  | .fault _ => none
  | .refused _ => none

/-- What a frame does: the status it leaves and the frames sent (the step is the engine's turn). -/
def outcome (s : State) : Option (BitVec 8 × List Bytes) := (after (step s)).map fun t => (t.regs.lastStatus, t.txStream)

/-! ## Decoding, one word or frame for every row -/

/-- What the decoder reads in a frame under the registers of the static device. -/
def read (f : Bytes) : Instr := decodeFrame .vectors (.atReset .static) f

/-- What it reads in a frame with the client in a state. -/
def readIn (d : DState) (f : Bytes) : Instr := decodeFrame .vectors (client d) f

/-- What it reads at a port. -/
def readAt (p : Port) (bs : Bytes) : Except DecodeError Instr := decode .vectors (.atReset .static) p bs

theorem test_decode_operations :
    readAt .operation [1] = .ok .reset ∧ readAt .operation [2] = .ok .cmd ∧ readAt .operation [3] = .ok .tick ∧
    readAt .operation [4] = .ok .rx ∧ readAt .operation [5] = .error .operationSelector ∧
    readAt .operation [] = .error .operationSelector ∧ readAt .read [0x11] = .ok (.read 0x11) ∧
    readAt .read [] = .error .readLength := by decide
theorem test_decode_commands :
    readAt .command [0x00, 0, 0, 0, 0] = .ok .cmdNop ∧
    readAt .command [0x01, 0, 0, 0, 0] = .ok .cmdDhcpRestart ∧
    readAt .command [0x02, 0x0A, 0x00, 0x00, 0x01] = .ok (.cmdArpResolve 0x0A000001) ∧
    readAt .command [0x03, 0, 0, 0, 0] = .ok (.cmdReserved 3) ∧
    readAt .command [0xFF, 1, 2, 3, 4] = .ok (.cmdReserved 0xFF) ∧
    readAt .command [0x02] = .error .commandLength := by decide
theorem test_decode_ticks :
    readAt .tick [0, 3] = .ok .tickStatic ∧ readAt .tick [1, 0] = .ok .tickInit ∧
    readAt .tick [1, 1] = .ok .tickSelecting ∧ readAt .tick [1, 2] = .ok .tickRequesting ∧
    readAt .tick [1, 3] = .ok .tickBound ∧ readAt .tick [1, 4] = .ok .tickRenewing ∧
    readAt .tick [1, 5] = .ok .tickRebinding ∧ readAt .tick [1, 6] = .ok .tickInitReboot ∧
    readAt .tick [1, 7] = .ok .tickRebooting ∧ readAt .tick [2, 0] = .error .tickSelector ∧
    readAt .tick [1, 8] = .error .tickSelector := by decide
theorem test_decode_ethRunt : read runtFrame = .ethRunt 13 := by decide +kernel
theorem test_decode_ethOversize : read oversizeFrame = .ethOversize 1515 := by decide +kernel
theorem test_decode_eth8023 : read lengthFrame = .eth8023 0x05DC := by decide +kernel
theorem test_decode_ethOther : read otherTypeFrame = .ethOther 0x05DD := by decide +kernel
theorem test_decode_ethArp : read arpShortFrame = .ethArp 0x020000000001 (arpShortFrame.drop 14) := by decide +kernel
theorem test_decode_ethIpv4 :
    read ipShortFrame = .ethIpv4 0x020000000001 [] ∧
    read notForUsFrame = .ethIpv4 0x020000000001 (notForUsFrame.drop 14) := by decide +kernel
theorem test_decode_arpRequest :
    read arpRequestIn = .arpRequest 0x020000000001 ⟨0x020000000001, 0x0A000001, 0, 0x0A000002⟩ := by decide +kernel
theorem test_decode_arpReply :
    read arpReplyIn = .arpReply ⟨0x020000000001, 0x0A000001, 0x020000000002, 0x0A000002⟩ := by decide +kernel
theorem test_decode_arpBadOper : read arpRarpFrame = .arpBadOper 3 := by decide +kernel
theorem test_decode_ipIcmp :
    read icmpShortFrame = .ipIcmp 0x020000000001 0x0A000001 0x0A000002 [0x08, 0x00, 0xF7, 0xFF] := by decide +kernel
theorem test_decode_ipUdp :
    read udpShortFrame = .ipUdp 0x0A000001 0x0A000002 [0x00, 0x35, 0x00, 0x35, 0x00, 0x06] := by decide +kernel
theorem test_decode_ipTcp : read tcpShortFrame = .ipTcp (tcpShortFrame.drop 34) := by decide +kernel
theorem test_decode_ipOther : read igmpFrame = .ipOther 2 := by decide +kernel
theorem test_decode_icmpEcho :
    read echoFrame = .icmpEcho 0x020000000001 0x0A000001 0 [0x12, 0x34, 0x00, 0x01, 0x61, 0x62, 0x63, 0x64] := by
  decide +kernel
theorem test_decode_icmpOther : read echoReplyIn = .icmpOther 0 := by decide +kernel
theorem test_decode_udpOther : read udpDnsFrame = .udpOther 1000 53 := by decide +kernel
theorem test_decode_udpDhcp : read offerFrame = .udpDhcp (offerFrame.drop 42) := by decide +kernel
theorem test_decode_tcpInspect : read tcpSynFrame = .tcpInspect ⟨0xC000, 0x0050, 0x01020304, 0, 0x5002⟩ := by decide +kernel
theorem test_decode_dhcpOffer :
    readIn .selecting offerFrame = .dhcpOffer 0x0A000032 ⟨some 3600, some 0x0A000001, none, none⟩ := by decide +kernel
theorem test_decode_dhcpAckBind :
    readIn .requesting ackFrame = .dhcpAckBind 0x0A000032 ⟨some 3600, some 0x0A000001, none, none⟩ := by decide +kernel
theorem test_decode_dhcpAckExtend :
    readIn .rebinding ackFrame = .dhcpAckExtend 0x0A000032 ⟨some 3600, some 0x0A000001, none, none⟩ := by decide +kernel
theorem test_decode_dhcpNak : readIn .renewing nakFrame = .dhcpNak := by decide +kernel
theorem test_decode_dhcpOther :
    readIn .requesting offerFrame = .dhcpOther 2 ∧ readIn .bound ackFrame = .dhcpOther 5 ∧
    readIn .init nakFrame = .dhcpOther 6 := by decide +kernel
theorem test_decodeTableWord :
    decodeTableWord 8 0x01 = some .cmdDhcpRestart ∧ decodeTableWord 8 0x08 = some (.icmpEcho 0 0 0 [0, 0, 0, 0]) ∧
    decodeTableWord 16 0x0806 = some (.ethArp 0 []) ∧ decodeTableWord 16 2 = some (.arpReply ⟨0, 0, 0, 0⟩) := by
  decide +kernel

/-! ## One step of every instruction -/

theorem test_reset :
    (after (exec .reset { State.reset with pins := rebootPins, tickPend := 3 })).map
      (fun t => (t.regs.dstate, t.regs.dhAddr, t.regs.serverId, t.regs.myIp, t.tickPend))
      = some (.initReboot, 0x0A000032, 0x0A000001, 0, 0) := by decide
theorem test_cmd :
    (after (exec .cmd { State.reset with cmdValid := true, cmdOp := 0x80 })).map (fun t => (t.regs.lastStatus, t.cmdValid))
      = some (0x70, false) := by decide
theorem test_tick : (after (exec .tick (ticking (client .init)))).map (fun t => t.tickPend) = some 0 := by decide +kernel
theorem test_rx_flagged :
    (after (exec .rx { State.reset with rxFifo := [⟨arpRequestIn, true⟩] })).map
      (fun t => (t.regs.lastStatus, t.regs.dropCount, t.rxFifo, t.regs.peerSt)) = some (0x72, 1, [], .empty) := by decide +kernel
theorem test_rx_answers_arp : outcome (receiving arpRequestIn) = some (0x00, [arpReplyOut]) := by decide +kernel
theorem test_read :
    (after (exec (.read 0x00) (ticking (leased .bound 0)))).map (fun t => t.hostReads) = some [(0x00, 0x103)] := by
  decide +kernel
theorem test_cmdNop :
    (after (exec .cmdNop { State.reset with cmdValid := true })).map (fun t => (t.regs.lastStatus, t.cmdValid))
      = some (0x00, false) := by decide
theorem test_cmdDhcpRestart :
    (after (exec .cmdDhcpRestart (ticking (leased .bound 5)))).map
      (fun t => (t.regs.dstate, t.regs.myIp, t.regs.tmo, t.regs.xid))
      = some (.init, 0, 7, 0x11223344) := by decide +kernel
theorem test_cmdArpResolve :
    (after (exec (.cmdArpResolve 0x0A000001) State.reset)).map (fun t => (t.regs.peerSt, t.regs.peerIp, t.txStream))
      = some (.pending, 0x0A000001, [arpRequestOut]) := by decide +kernel
theorem test_cmdReserved :
    (after (exec (.cmdReserved 3) State.reset)).map (fun t => t.regs.lastStatus) = some 0x70 := by decide
theorem test_tickStatic :
    (after (exec .tickStatic { State.reset with tickPend := 2 })).map (fun t => (t.tickPend, t.regs)) =
      some (1, State.reset.regs) := by decide +kernel
theorem test_tickInit :
    (after (exec .tickInit { dhcpReset with tickPend := 1, draws := [0x11223344] })).map
      (fun t => (t.regs.dstate, t.regs.xid, t.txStream)) = some (.selecting, 0x11223344, [discoverOut]) := by decide +kernel
theorem test_tickSelecting :
    (after (exec .tickSelecting (ticking { client .selecting with elapsed := 6 }))).map
      (fun t => (t.regs.dstate, t.regs.tmo)) = some (.init, 14) := by decide +kernel
theorem test_tickRequesting :
    (after (exec .tickRequesting (ticking { client .requesting with elapsed := 55, tmo := 56, retry := 3 }))).map
      (fun t => (t.regs.dstate, t.regs.tmo)) = some (.init, 64) := by decide +kernel
theorem test_tickBound :
    (after (exec .tickBound (ticking (leased .bound 1799)))).map (fun t => (t.regs.dstate, t.regs.elapsed, t.regs.txCount))
      = some (.renewing, 1800, 1) := by decide +kernel
theorem test_tickRenewing :
    (after (exec .tickRenewing (ticking (leased .renewing 3149)))).map (fun t => (t.regs.dstate, t.regs.elapsed))
      = some (.rebinding, 3150) := by decide +kernel
theorem test_tickRebinding :
    (after (exec .tickRebinding (ticking (leased .rebinding 3599)))).map (fun t => (t.regs.dstate, t.regs.myIp))
      = some (.init, 0) := by decide +kernel
theorem test_tickInitReboot :
    (after (exec .tickInitReboot { State.afterReset rebootPins .vectors with tickPend := 1, draws := [0x11223344] })).map
      (fun t => (t.regs.dstate, t.txStream.map List.length)) = some (.rebooting, [292]) := by decide +kernel
theorem test_tickRebooting :
    (after (exec .tickRebooting (ticking { client .rebooting with elapsed := 6, dhAddr := 0x0A000032 }))).map
      (fun t => (t.regs.dstate, t.regs.dhAddr)) = some (.init, 0) := by decide +kernel
theorem test_step_ethRunt : outcome (receiving runtFrame) = some (0x01, []) := by decide +kernel
theorem test_step_ethOversize : outcome (receiving oversizeFrame) = some (0x04, []) := by decide +kernel
theorem test_step_eth8023 : outcome (receiving lengthFrame) = some (0x02, []) := by decide +kernel
theorem test_step_ethOther : outcome (receiving otherTypeFrame) = some (0x03, []) := by decide +kernel
theorem test_step_ethArp : outcome (receiving arpShortFrame) = some (0x10, []) := by decide +kernel
theorem test_step_ethIpv4 : outcome (receiving notForUsFrame) = some (0x25, []) := by decide +kernel
theorem test_step_arpBadOper : outcome (receiving arpRarpFrame) = some (0x17, []) := by decide +kernel
theorem test_step_arpReply_unsolicited : outcome (receiving arpReplyIn) = some (0x16, []) := by decide +kernel
theorem test_step_ipIcmp : outcome (receiving icmpShortFrame) = some (0x30, []) := by decide +kernel
theorem test_step_ipUdp : outcome (receiving udpShortFrame) = some (0x40, []) := by decide +kernel
theorem test_step_ipTcp : outcome (receiving tcpShortFrame) = some (0x50, []) := by decide +kernel
theorem test_step_ipOther : outcome (receiving igmpFrame) = some (0x27, []) := by decide +kernel
theorem test_step_icmpOther : outcome (receiving echoReplyIn) = some (0x32, []) := by decide +kernel
theorem test_step_udpOther : outcome (receiving udpDnsFrame) = some (0x43, []) := by decide +kernel
theorem test_step_udpDhcp : outcome (receiving offerFrame) = some (0x68, []) := by decide +kernel
theorem test_step_arpRequest :
    (after (step (receiving arpRequestIn))).map (fun t => (t.regs.peerIp, t.regs.peerMac, t.regs.peerSt, t.regs.txCount))
      = some (0x0A000001, 0x020000000001, .resolved, 1) := by decide +kernel
theorem test_step_arpReply :
    (after (step { receiving arpReplyIn with
      regs := { State.reset.regs with peerIp := 0x0A000001, peerSt := .pending } })).map
      (fun t => (t.regs.peerMac, t.regs.peerSt, t.txStream)) = some (0x020000000001, .resolved, []) := by decide +kernel
theorem test_step_icmpEcho : outcome (receiving echoFrame) = some (0x00, [echoOut]) := by decide +kernel
theorem test_step_tcpInspect :
    (after (step (receiving tcpSynFrame))).map
      (fun t => (t.regs.tcpSport, t.regs.tcpDport, t.regs.tcpSeq, t.regs.tcpOffFlags, t.regs.tcpCount))
      = some (0xC000, 80, 0x01020304, 0x5002, 1) := by decide +kernel

/-- A state of the DHCP client that has received a frame. -/
def clientReceiving (r : Regs) (f : Bytes) : State := { dhcpReset with regs := r, rxFifo := [⟨f, false⟩] }

theorem test_step_dhcpOffer :
    (after (step (clientReceiving (client .selecting) offerFrame))).map
      (fun t => (t.regs.dstate, t.regs.dhAddr, t.regs.serverId, t.txStream.map List.length))
      = some (.requesting, 0x0A000032, 0x0A000001, [298]) := by decide +kernel
theorem test_step_dhcpAckBind :
    (after (step (clientReceiving (client .requesting) ackFrame))).map
      (fun t => (t.regs.dstate, t.regs.myIp, t.regs.lease, t.regs.t1, t.regs.t2, t.regs.elapsed))
      = some (.bound, 0x0A000032, 3600, 1800, 3150, 0) := by decide +kernel
theorem test_step_dhcpAckExtend :
    (after (step (clientReceiving (leased .renewing 1805) ackFrame))).map (fun t => (t.regs.dstate, t.regs.elapsed))
      = some (.bound, 0) := by decide +kernel
theorem test_dhcpAckExtend_other_address :
    (after (exec (.dhcpAckExtend 0x0A000033 ⟨some 3600, none, none, none⟩) (ticking (leased .renewing 1805)))).map
      (fun t => (t.regs.dstate, t.regs.lastStatus)) = some (.renewing, 0x67) := by decide +kernel
theorem test_step_dhcpNak :
    (after (step (clientReceiving (client .requesting) nakFrame))).map (fun t => (t.regs.dstate, t.regs.myIp, t.regs.xid))
      = some (.init, 0, 0x11223344) := by decide +kernel
theorem test_step_dhcpOther : outcome (clientReceiving (leased .bound 9) ackFrame) = some (0x65, []) := by decide +kernel

/-! ## The checksum engine (vectors C1 to C9) -/

theorem test_csum :
    csum [] = 0xFFFF ∧ csum [[0x00, 0x00, 0x00, 0x00]] = 0xFFFF ∧ csum [[0x01]] = 0xFEFF ∧
    csum [[0x01, 0x02, 0x03]] = 0xFBFD ∧ csum [[0x12], [0x34, 0x56]] = 0x97CB ∧ csum [[0x12, 0x34, 0x56]] = 0x97CB ∧
    csum [[0xFF, 0xFF]] = 0x0000 ∧ csum [[0x80, 0x00, 0x80, 0x00]] = 0xFFFE := by decide

/-! ## The environment -/

theorem test_withFetchWord :
    (after (step (State.reset.withFetchWord 16 0x86DD))).map (fun t => t.regs.lastStatus) = some 0x03 ∧
    (after (step (State.reset.withFetchWord 8 0x80))).map (fun t => t.regs.lastStatus) = some 0x70 := by decide +kernel
theorem test_script_tick :
    (ScriptLine.ticks 2).events = [.tickPulse, .engine, .tickPulse, .engine] := by decide

/-! ## Witnesses: concrete states and operands that meet the hypotheses of the statements, clause by clause -/

/-- An operation of this kind waits for the transmit MAC, its input still pending. -/
def busy (k : OpKind) : State :=
  { State.reset with
    tickPend := 1, cmdValid := true, rxFifo := [⟨arpRequestIn, false⟩], held := some ⟨k, State.reset.regs, arpRequestOut⟩ }

/-- A state whose next move is `e`. -/
def scripted (e : EnvEvent) (s : State) : State := { s with env := [e] }

/-- A state whose transmit MAC gives these answers. -/
def answering (a : List TxAnswer) (s : State) : State := { s with txAnswers := a }

theorem witness_AssertedResetAbortsTheOperation :
    (scripted .assertReset (busy .rx)).env = .assertReset :: [] ∧ (busy .rx).held ≠ none ∧
    (State.env { busy .rx with resetIn := true }) = [] ∧ (State.resetIn { busy .rx with resetIn := true }) = true :=
  ⟨rfl, nofun, rfl, rfl⟩
theorem witness_StatusReadGivesTheMapWithoutSideEffect :
    0x1B ≤ (0x1B : BitVec 8).toNat ∧ 0x1B ≤ (0xFF : BitVec 8).toNat ∧ ¬ 0x1B ≤ (0x1A : BitVec 8).toNat := by decide
theorem witness_StatusReadGivesTheMapWithoutSideEffect_move :
    (scripted (.statusRead 0x11) (busy .rx)).env = .statusRead 0x11 :: [] ∧ (busy .rx).held ≠ none ∧
    (scripted (.statusRead 0xFF) { State.reset with resetIn := true }).env = .statusRead 0xFF :: [] := ⟨rfl, nofun, rfl⟩
theorem witness_InputsArriveAsStated_pulse :
    (scripted .tickPulse { State.reset with tickPend := 254 }).env = .tickPulse :: [] ∧
    (scripted .tickPulse { State.reset with tickPend := 255 }).env = .tickPulse :: [] ∧ State.reset.resetIn = false ∧
    (scripted .tickPulse { State.reset with resetIn := true }).env = .tickPulse :: [] ∧
    (scripted .tickPulse { State.reset with resetIn := true }).resetIn = true := ⟨rfl, rfl, rfl, rfl, rfl⟩
theorem witness_InputsArriveAsStated_levels_and_answers :
    (scripted .deassertReset { State.reset with resetIn := true }).env = .deassertReset :: [] ∧
    (scripted (.setPins dhcpPins) State.reset).env = .setPins dhcpPins :: [] ∧
    (scripted (.draw 5) State.reset).env = .draw 5 :: [] ∧
    (scripted (.txAnswer .error) State.reset).env = .txAnswer .error :: [] := ⟨rfl, rfl, rfl, rfl⟩
theorem witness_InputsArriveAsStated_command :
    (scripted (.commandWrite 2 1) State.reset).env = .commandWrite 2 1 :: [] ∧ State.reset.resetIn = false ∧
    State.reset.cmdValid = false ∧ (busy .cmd).cmdValid = true := ⟨rfl, rfl, rfl, rfl⟩
theorem witness_InputsArriveAsStated_frame :
    (scripted (.frameArrives ⟨runtFrame, true⟩) State.reset).env = .frameArrives ⟨runtFrame, true⟩ :: [] ∧
    (State.rxFifo { State.reset with rxFifo := List.replicate 15 ⟨[], false⟩ }).length < State.reset.params.rxFifoCapacity ∧
    State.reset.params.rxFifoCapacity ≤ (State.rxFifo { State.reset with rxFifo := List.replicate 16 ⟨[], false⟩ }).length := by
  decide
theorem witness_StepRunsTheDecodedInstruction_idle :
    (receiving runtFrame).env = [] ∧ (receiving runtFrame).held = none ∧
    (receiving runtFrame).fetch = some (.frame, runtFrame) ∧
    decode (receiving runtFrame).params (receiving runtFrame).regs .frame runtFrame = .ok (.ethRunt 13) := by decide +kernel
theorem witness_StepRunsTheDecodedInstruction_scripted :
    (scripted .engine { busy .cmd with resetIn := true }).env = .engine :: [] ∧
    (State.resetIn { busy .cmd with resetIn := true }) = true ∧
    (State.fetch { busy .cmd with resetIn := true }) = some (.operation, [1]) ∧
    decode Params.vectors State.reset.regs .operation [1] = .ok .reset := by decide +kernel
theorem witness_ArbiterPriority :
    (receiving runtFrame).env = [] ∧ (receiving runtFrame).held = none ∧ (receiving runtFrame).resetIn = false ∧
    (receiving runtFrame).cmdValid = false ∧ (receiving runtFrame).tickPend = 0 ∧
    (receiving runtFrame).rxFifo = ⟨runtFrame, false⟩ :: [] ∧ RxFrame.err ⟨runtFrame, true⟩ = true ∧
    (ticking (client .init)).tickPend ≠ 0 ∧ (ticking (client .init)).cmdValid = false ∧ State.reset.rxFifo = [] ∧
    (State.cmdValid { State.reset with cmdValid := true }) = true ∧ (State.resetIn { State.reset with resetIn := true }) = true := by
  decide +kernel
theorem witness_CmdDhcpRestartAbandons : State.reset.regs.dhcpEn = false ∧ dhcpReset.regs.dhcpEn = true := ⟨rfl, rfl⟩
theorem witness_CmdArpResolveAsksForThePeer : State.reset.macAccepts ∧ (answering [.accept] State.reset).macAccepts :=
  ⟨.inl rfl, .inr ⟨_, rfl⟩⟩
theorem witness_CmdRunsTheRowOfCmdOp :
    State.reset.macAccepts ∧ (answering [.error] State.reset).macRefuses ∧
    (State.cmdOp { State.reset with cmdOp := 1 }) = 0x01 ∧ (State.cmdOp { State.reset with cmdOp := 2 }) = 0x02 ∧
    State.reset.cmdOp = 0x00 ∧ 3 ≤ (State.cmdOp { State.reset with cmdOp := 3 }).toNat ∧
    3 ≤ (State.cmdOp { State.reset with cmdOp := 255 }).toNat := ⟨.inl rfl, ⟨_, rfl⟩, rfl, rfl, rfl, by decide, by decide⟩
theorem witness_TickRunsTheRowOfTheState : (State.tickPend { State.reset with tickPend := 1 }) ≠ 0 := by decide
theorem witness_TickInitDrawsAnXidAndStarts :
    (Instr.tickInit = .tickInit ∧ DState.selecting = .selecting ∧ DhcpForm.discover = .discover) ∧
    (Instr.tickInitReboot = .tickInitReboot ∧ DState.rebooting = .rebooting ∧ DhcpForm.reqReboot = .reqReboot) ∧
    (ticking (client .init)).tickPend ≠ 0 ∧ (ticking (client .init)).macAccepts ∧ (ticking (client .init)).draws = [] ∧
    (State.draws { ticking (client .init) with draws := [5] }) = 5 :: [] :=
  ⟨⟨rfl, rfl, rfl⟩, ⟨rfl, rfl, rfl⟩, by decide +kernel, .inl rfl, rfl, rfl⟩
theorem witness_TickSelectingWaitsForAnOffer :
    (ticking (client .selecting)).tickPend ≠ 0 ∧
    (1 : Word).toNat = min ((client .selecting).elapsed.toNat + 1) 0xFFFFFFFF ∧ (1 : Word).toNat < (client .selecting).tmo.toNat ∧
    (7 : Word).toNat = min ((Regs.elapsed { client .selecting with elapsed := 6 }).toNat + 1) 0xFFFFFFFF ∧
    (client .selecting).tmo.toNat ≤ (7 : Word).toNat ∧
    (0xFFFFFFFF : Word).toNat = min ((Regs.elapsed { client .selecting with elapsed := 0xFFFFFFFF }).toNat + 1) 0xFFFFFFFF := by
  decide +kernel
theorem witness_TickRequestingRetriesBounded :
    (ticking (client .requesting)).tickPend ≠ 0 ∧ (ticking (client .requesting)).macAccepts ∧
    (7 : Word).toNat = min ((Regs.elapsed { client .requesting with elapsed := 6 }).toNat + 1) 0xFFFFFFFF ∧
    (6 : Word).toNat = min ((Regs.elapsed { client .requesting with elapsed := 5 }).toNat + 1) 0xFFFFFFFF ∧
    (6 : Word).toNat < (client .requesting).tmo.toNat ∧ (client .requesting).tmo.toNat ≤ (7 : Word).toNat ∧
    (Regs.retry { client .requesting with retry := 2 }).toNat < Params.vectors.maxRetries.toNat ∧
    Params.vectors.maxRetries.toNat ≤ (Regs.retry { client .requesting with retry := 3 }).toNat :=
  ⟨by decide +kernel, .inl rfl, by decide +kernel⟩
theorem witness_TickRebootingWaitsAFixedTime :
    (ticking (client .rebooting)).tickPend ≠ 0 ∧
    (6 : Word).toNat = min ((Regs.elapsed { client .rebooting with elapsed := 5 }).toNat + 1) 0xFFFFFFFF ∧
    (6 : Word).toNat < 7 ∧ (7 : Word).toNat = min ((Regs.elapsed { client .rebooting with elapsed := 6 }).toNat + 1) 0xFFFFFFFF ∧
    7 ≤ (7 : Word).toNat := by decide +kernel
theorem witness_TickLeaseAgesTheLease :
    (ticking (leased .bound 0)).tickPend ≠ 0 ∧ (ticking (leased .bound 0)).macAccepts ∧
    (3600 : Word).toNat = min ((leased .rebinding 3599).elapsed.toNat + 1) 0xFFFFFFFF ∧
    (leased .rebinding 3599).lease.toNat ≤ (3600 : Word).toNat ∧
    (3150 : Word).toNat = min ((leased .renewing 3149).elapsed.toNat + 1) 0xFFFFFFFF ∧
    (3150 : Word).toNat < (leased .renewing 3149).lease.toNat ∧ (leased .renewing 3149).t2.toNat ≤ (3150 : Word).toNat ∧
    (leased .renewing 3149).dstate ≠ .rebinding ∧
    (1800 : Word).toNat = min ((leased .bound 1799).elapsed.toNat + 1) 0xFFFFFFFF ∧
    (1800 : Word).toNat < (leased .bound 1799).t2.toNat ∧ (leased .bound 1799).t1.toNat ≤ (1800 : Word).toNat ∧
    (leased .bound 1799).dstate = .bound ∧
    (1799 : Word).toNat = min ((leased .bound 1798).elapsed.toNat + 1) 0xFFFFFFFF ∧
    (1799 : Word).toNat < (leased .bound 1798).t1.toNat ∧ (leased .rebinding 3150).dstate = .rebinding :=
  ⟨by decide +kernel, .inl rfl, by decide +kernel⟩
theorem witness_DropRowsLeaveTheirCode :
    (State.rxFifo { State.reset with rxFifo := [⟨arpRequestIn, true⟩] }) = ⟨arpRequestIn, true⟩ :: [] ∧
    RxFrame.err ⟨arpRequestIn, true⟩ = true := ⟨rfl, rfl⟩
theorem witness_RxRunsTheDecodedRow :
    (receiving echoFrame).rxFifo = ⟨echoFrame, false⟩ :: [] ∧ RxFrame.err ⟨echoFrame, false⟩ = false := ⟨rfl, rfl⟩

/-- A frame of `n` bytes with this EtherType field. -/
def framed (et : Half) (n : Nat) : Bytes := zeros 12 ++ bytes16 et ++ zeros (n - 14)

theorem witness_EthernetChecksInOrder :
    (receiving (framed 0 14)).rxFifo = ⟨framed 0 14, false⟩ :: [] ∧ ((framed 0x0806 14).take 13).length < 14 ∧
    14 ≤ (framed 0x0806 14).length ∧ (framed 0x0806 1514).length ≤ 1514 ∧ 1514 < (framed 0x0800 1515).length ∧
    (be16 (framed 0x05DC 14) 12).toNat ≤ 0x05DC ∧ 0x05DC < (be16 (framed 0x05DD 14) 12).toNat ∧
    be16 (framed 0x05DD 14) 12 ≠ 0x0806 ∧ be16 (framed 0x05DD 14) 12 ≠ 0x0800 ∧ be16 (framed 0x0806 14) 12 = 0x0806 ∧
    be16 (framed 0x0800 1514) 12 = 0x0800 := by decide +kernel

/-- The addresses of vector P2. -/
def askForMe : ArpAddrs := ⟨0x020000000001, 0x0A000001, 0, 0x0A000002⟩

theorem witness_ArpRequestIsAnswered :
    State.reset.regs.myIp ≠ 0 ∧ askForMe.tpa = State.reset.regs.myIp ∧ State.reset.macAccepts ∧ dhcpReset.regs.myIp = 0 ∧
    (ArpAddrs.tpa { askForMe with tpa := 0x0A000003 }) ≠ State.reset.regs.myIp :=
  ⟨by decide, rfl, .inl rfl, rfl, by decide⟩
theorem witness_ArpReplyCompletesTheResolution :
    (Regs.peerSt { State.reset.regs with peerIp := 0x0A000001, peerSt := .pending }) = .pending ∧
    askForMe.spa = (Regs.peerIp { State.reset.regs with peerIp := 0x0A000001, peerSt := .pending }) ∧
    State.reset.regs.peerSt ≠ .pending ∧ askForMe.spa ≠ State.reset.regs.peerIp := by decide

/-- The 28 bytes of the ARP request of vector P2. -/
def arpPkt : Bytes := arpRequestIn.drop 14

theorem witness_EthArpChecksThenRunsTheRowOfOper :
    (arpPkt.take 27).length < 28 ∧ 28 ≤ arpPkt.length ∧ be16 (arpPkt.set 1 6) 0 ≠ 1 ∧
    be16 arpPkt 0 = 1 ∧ be16 (arpPkt.set 2 0x86) 2 ≠ 0x0800 ∧ be16 arpPkt 2 = 0x0800 ∧ byteAt (arpPkt.set 4 8) 4 ≠ 6 ∧
    byteAt arpPkt 4 = 6 ∧ byteAt (arpPkt.set 5 16) 5 ≠ 4 ∧ byteAt arpPkt 5 = 4 ∧ be16 arpPkt 6 = 1 ∧
    be16 (arpPkt.set 7 2) 6 = 2 ∧ be16 (arpPkt.set 7 3) 6 ≠ 1 ∧ be16 (arpPkt.set 7 3) 6 ≠ 2 ∧ be16 (arpPkt.set 7 0) 6 ≠ 1 ∧
    (⟨be48 arpPkt 8, be32 arpPkt 14, be48 arpPkt 18, be32 arpPkt 24⟩ : ArpAddrs) = askForMe := by decide +kernel

/-- The datagram of vector P6 with a protocol number and a header checksum for it. -/
def datagram (proto : Byte) : Bytes := ipDatagram .vectors proto 0x0A000001 0x0A000002 (echoFrame.drop 34)

theorem witness_Ipv4ChecksInOrder_version_and_length :
    ((datagram 1).take 19).length < 20 ∧ 20 ≤ (datagram 1).length ∧ (byteAt ((datagram 1).set 0 0x65) 0).toNat / 16 ≠ 4 ∧
    (byteAt (datagram 1) 0).toNat / 16 = 4 ∧ (byteAt ((datagram 1).set 0 0x44) 0).toNat % 16 * 4 < 20 ∧
    ((datagram 1).take 20).length < (byteAt ((datagram 1).set 0 0x46) 0).toNat % 16 * 4 ∧
    20 ≤ (byteAt (datagram 1) 0).toNat % 16 * 4 ∧ (byteAt (datagram 1) 0).toNat % 16 * 4 ≤ (datagram 1).length := by
  decide +kernel
theorem witness_Ipv4ChecksInOrder_checksum :
    (∀ d, d = (datagram 1).set 10 0 → csum [d.take 10, [0, 0], slice d 12 20] ≠ be16 d 10) ∧
    (∀ d, d = datagram 1 → csum [d.take 10, [0, 0], slice d 12 20] = be16 d 10) := by
  refine ⟨?_, ?_⟩ <;> intro d h <;> subst h <;> decide +kernel
theorem witness_Ipv4ChecksInOrder_total_length :
    (∀ d, d = insertChecksum (ipHeaderZero .vectors 1 0 0 65535) 10 →
      csum [d.take 10, [0, 0], slice d 12 20] = be16 d 10 ∧ (be16 d 2).toNat < 20) ∧
    (∀ d, d = insertChecksum (ipHeaderZero .vectors 1 0 0 1) 10 →
      csum [d.take 10, [0, 0], slice d 12 20] = be16 d 10 ∧ d.length < (be16 d 2).toNat) ∧
    20 ≤ (be16 (datagram 1) 2).toNat ∧ (be16 (datagram 1) 2).toNat ≤ (datagram 1).length := by
  refine ⟨?_, ?_, by decide +kernel, by decide +kernel⟩ <;> intro d h <;> subst h <;> decide +kernel
theorem witness_Ipv4ChecksInOrder_destination_and_fragment :
    (∀ d, d = notForUsFrame.drop 14 →
      csum [d.take 10, [0, 0], slice d 12 20] = be16 d 10 ∧ acceptsDst State.reset.regs (be32 d 16) = false) ∧
    (∀ d, d = insertChecksum ((ipHeaderZero .vectors 1 0 0x0A000002 0).set 6 0x20) 10 →
      csum [d.take 10, [0, 0], slice d 12 20] = be16 d 10 ∧ acceptsDst State.reset.regs (be32 d 16) = true ∧
      (be16 d 6).toNat % 0x4000 ≠ 0) := by
  refine ⟨?_, ?_⟩ <;> intro d h <;> subst h <;> decide +kernel
theorem witness_EthIpv4RunsTheRowOfTheProtocol :
    ∀ proto : Byte, proto = 1 ∨ proto = 17 ∨ proto = 6 ∨ proto = 2 → ∀ d, d = datagram proto →
      20 ≤ d.length ∧ (byteAt d 0).toNat / 16 = 4 ∧ (byteAt d 0).toNat % 16 * 4 = 20 ∧
      csum [d.take 10, [0, 0], slice d 12 20] = be16 d 10 ∧ 20 ≤ (be16 d 2).toNat ∧ (be16 d 2).toNat ≤ d.length ∧
      acceptsDst State.reset.regs (be32 d 16) = true ∧ (be16 d 6).toNat % 0x4000 = 0 ∧ byteAt d 9 = proto := by
  rintro proto h d rfl
  rcases h with rfl | rfl | rfl | rfl <;> decide +kernel
theorem witness_DestinationFilter : dhcpReset.regs.myIp = 0 := rfl
theorem witness_OutgoingIpv4Header : (zeros 0).length ≤ 1480 ∧ (zeros 1480).length ≤ 1480 := by decide +kernel
theorem witness_IcmpEchoIsAnswered : State.reset.regs.myIp ≠ 0 ∧ State.reset.macAccepts ∧ dhcpReset.regs.myIp = 0 :=
  ⟨by decide, .inl rfl, rfl⟩

/-- The ICMP message of vector P6. -/
def echoMsg : Bytes := echoFrame.drop 34

theorem witness_IpIcmpChecksThenRunsTheRowOfTheType :
    (echoMsg.take 7).length < 8 ∧ 8 ≤ echoMsg.length ∧
    csum [(echoMsg.set 2 0).take 2, [0, 0], (echoMsg.set 2 0).drop 4] ≠ be16 (echoMsg.set 2 0) 2 ∧
    csum [(icmpMessage 0 0 (zeros 4)).take 2, [0, 0], (icmpMessage 0 0 (zeros 4)).drop 4] = be16 (icmpMessage 0 0 (zeros 4)) 2 ∧
    8 ≤ (icmpMessage 0 0 (zeros 4)).length ∧ byteAt (icmpMessage 0 0 (zeros 4)) 0 ≠ 8 ∧
    csum [echoMsg.take 2, [0, 0], echoMsg.drop 4] = be16 echoMsg 2 ∧ byteAt echoMsg 0 = 8 := by decide +kernel

/-- The UDP datagram of vector U7, its checksum field 0. -/
def dns : Bytes := udpDnsFrame.drop 34

theorem witness_IpUdpChecksThenRunsTheRowOfThePorts_lengths :
    (dns.take 7).length < 8 ∧ 8 ≤ dns.length ∧ (be16 (dns.set 5 7) 4).toNat < 8 ∧
    (dns.take 11).length < (be16 dns 4).toNat ∧ 8 ≤ (be16 (dns.set 5 8) 4).toNat ∧ (be16 dns 4).toNat ≤ dns.length := by
  decide +kernel
theorem witness_IpUdpChecksThenRunsTheRowOfThePorts_checksum :
    (∀ p, p = dns.set 7 1 →
      be16 p 6 ≠ 0 ∧ csum [pseudo 0 0 17 (be16 p 4), p.take 6, [0, 0], slice p 8 12] ≠ be16 p 6 ∧
      ¬ (csum [pseudo 0 0 17 (be16 p 4), p.take 6, [0, 0], slice p 8 12] = 0 ∧ be16 p 6 = 0xFFFF)) ∧
    be16 dns 6 = 0 ∧
    (∀ p, p = udpDatagram 0 0 1000 53 [1] → csum [pseudo 0 0 17 (be16 p 4), p.take 6, [0, 0], slice p 8 9] = be16 p 6) ∧
    (∀ p, p = udpDatagram 0 0xFFFFFFFF 0 0 [0xFF, 0xDA] →
      csum [pseudo 0 0xFFFFFFFF 17 (be16 p 4), p.take 6, [0, 0], slice p 8 10] = 0 ∧ be16 p 6 = 0xFFFF) := by
  refine ⟨?_, by decide +kernel, ?_, ?_⟩ <;> intro d h <;> subst h <;> decide +kernel
theorem witness_IpUdpChecksThenRunsTheRowOfThePorts_ports :
    be16 (offerFrame.drop 34) 0 = 67 ∧ be16 (offerFrame.drop 34) 2 = 68 ∧ be16 dns 0 ≠ 67 ∧
    be16 ([0x00, 0x43] ++ dns.drop 2) 2 ≠ 68 := by decide +kernel

/-- The TCP segment of vector T4. -/
def syn : Bytes := tcpSynFrame.drop 34

theorem witness_IpTcpChecksThenLatches :
    (syn.take 19).length < 20 ∧ (byteAt (syn.set 12 0x4F) 12).toNat / 16 < 5 ∧
    syn.length < (byteAt (syn.set 12 0x60) 12).toNat / 16 * 4 ∧ 20 ≤ syn.length ∧ 5 ≤ (byteAt syn 12).toNat / 16 ∧
    (byteAt syn 12).toNat / 16 * 4 ≤ syn.length := by decide +kernel
theorem witness_OutgoingUdpDatagram : (zeros 0).length ≤ 1472 ∧ (zeros 1472).length ≤ 1472 := by decide +kernel

/-- The DHCP message of the vectors' OFFER and ACK. -/
def offerMsg : Bytes := offerFrame.drop 42

theorem witness_UdpDhcpChecksThenRunsTheRowOfTypeAndState_header :
    State.reset.regs.dhcpEn = false ∧ (client .selecting).dhcpEn = true ∧ (offerMsg.take 239).length < 240 ∧
    240 ≤ (offerMsg.take 240).length ∧ byteAt (offerMsg.set 0 1) 0 ≠ 2 ∧ byteAt offerMsg 0 = 2 ∧
    be32 (offerMsg.set 236 0) 236 ≠ 0x63825363 ∧ be32 offerMsg 236 = 0x63825363 ∧
    be32 (offerMsg.set 7 0) 4 ≠ (client .selecting).xid ∧ be32 offerMsg 4 = (client .selecting).xid := by decide +kernel
theorem witness_UdpDhcpChecksThenRunsTheRowOfTypeAndState_type :
    (∀ d, d = offerMsg.take 240 →
      (parseOptions (optionBytes .vectors d).length (optionBytes .vectors d) .empty).msgType = none) ∧
    (∀ d, d = offerMsg →
      (parseOptions (optionBytes .vectors d).length (optionBytes .vectors d) .empty).msgType = some 2) ∧
    (∀ d, d = ackFrame.drop 42 →
      (parseOptions (optionBytes .vectors d).length (optionBytes .vectors d) .empty).msgType = some 5) ∧
    (∀ d, d = nakFrame.drop 42 →
      (parseOptions (optionBytes .vectors d).length (optionBytes .vectors d) .empty).msgType = some 6) ∧
    (client .requesting).dstate = .requesting ∧ (client .rebooting).dstate = .rebooting ∧
    (client .renewing).dstate = .renewing ∧ (client .rebinding).dstate = .rebinding ∧ (client .bound).dstate = .bound := by
  refine ⟨?_, ?_, ?_, ?_, rfl, rfl, rfl, rfl, rfl⟩ <;> intro d h <;> subst h <;> decide +kernel

/-- Options with a server identifier and a lease time, and T1 and T2 given or not. -/
def leaseOpts (t1 t2 : Option Word) : DhcpOpts := ⟨some 3600, some 0x0A000001, t1, t2⟩

theorem witness_DhcpOfferIsRequested :
    noOpts.server = none ∧ (leaseOpts none none).server = some 0x0A000001 ∧ (0 : Ip) = 0 ∧ (0x0A000032 : Ip) ≠ 0 ∧
    (ticking (client .selecting)).macAccepts := ⟨rfl, rfl, rfl, by decide, .inl rfl⟩
theorem witness_DhcpAckBindsTheLease :
    noOpts.lease = none ∧ (leaseOpts none none).lease = some 3600 ∧ (0x0A000032 : Ip) ≠ 0 ∧
    (leaseOpts (some 5) (some 6)).t1 = some 5 ∧ (leaseOpts (some 5) (some 6)).t2 = some 6 ∧
    (leaseOpts none none).t1 = none ∧ (leaseOpts none none).t2 = none := by decide
theorem witness_DhcpAckExtendsTheLease :
    noOpts.lease = none ∧ (leaseOpts none none).lease = some 3600 ∧ (0x0A000033 : Ip) ≠ (leased .renewing 0).dhAddr ∧
    (0x0A000032 : Ip) = (leased .renewing 0).dhAddr := by decide +kernel
theorem witness_OptionParsingFollowsTheLoop :
    ParsedOpts.empty.msgType = none ∧ (ParsedOpts.msgType { ParsedOpts.empty with msgType := some 2 }) = some 2 ∧
    (ParsedOpts.opts { ParsedOpts.empty with opts := leaseOpts (some 1) (some 2) }).t1 = some 1 ∧
    ([1, 2] : Bytes).length ≤ 2 ∧ (53 : Byte) ≠ 0 ∧ (254 : Byte) ≠ 255 ∧ ([] : Bytes).length = (0 : Byte).toNat ∧
    (zeros 255).length = (255 : Byte).toNat ∧ (zeros 254).length < (255 : Byte).toNat ∧ ([] : Bytes).length < (1 : Byte).toNat := by
  decide +kernel
theorem witness_OptionParsingFollowsTheLoop_record :
    ParsedOpts.empty.opts.lease = none ∧ ParsedOpts.empty.opts.server = none ∧ ParsedOpts.empty.opts.t1 = none ∧
    ParsedOpts.empty.opts.t2 = none ∧ ([5] : Bytes).length = 1 ∧ (zeros 4).length = 4 ∧ (zeros 3).length ≠ 4 ∧
    ([] : Bytes).length ≠ 1 ∧ (leaseOpts (some 1) (some 2)).lease ≠ none ∧ (leaseOpts (some 1) (some 2)).server ≠ none ∧
    (leaseOpts (some 1) (some 2)).t1 ≠ none ∧ (leaseOpts (some 1) (some 2)).t2 ≠ none ∧
    ((52 : Byte) ≠ 53 ∧ (52 : Byte) ≠ 51 ∧ (52 : Byte) ≠ 54 ∧ (52 : Byte) ≠ 58 ∧ (52 : Byte) ≠ 59) ∧
    240 + 311 < min (zeros 600).length (240 + Params.vectors.optBufLen) ∧
    240 + 0 < min (zeros 241).length (240 + Params.vectors.optBufLen) := by decide +kernel
theorem witness_DhcpFrameLayout :
    (leased .renewing 0).serverId ≠ 0 ∧ (client .init).serverId = 0 ∧
    (∀ r, r = { leased .renewing 0 with peerIp := 0x0A000001, peerMac := 0x020000000001, peerSt := .resolved } →
      r.peerSt = .resolved ∧ r.peerIp = r.serverId ∧ r.serverId ≠ 0) ∧
    ¬ (leased .renewing 0).peerSt = .resolved := by
  refine ⟨by decide +kernel, rfl, ?_, by decide +kernel⟩
  intro r h; subst h; decide +kernel
theorem witness_ChecksumLaws : ([0x01, 0x02, 0x03] : Bytes).length % 2 = 1 ∧ ∀ b ∈ zeros 3, b = 0 := by decide
theorem witness_ChecksumInsertionVerifies :
    0 + 2 ≤ ([0x00, 0x00] : Bytes).length ∧ be16 [0x00, 0x00] 0 = 0 ∧
    10 + 2 ≤ (ipHeaderZero .vectors 1 0 0 0).length ∧ be16 (ipHeaderZero .vectors 1 0 0 0) 10 = 0 := by decide +kernel
/-- With these answers of the transmit MAC every emitting row has a state in which it emits. -/
def EmittingRows (a : List TxAnswer) : Prop :=
  (∃ q r f, (answering a State.reset).Emits (.cmdArpResolve 0x0A000001) q .cmd r f) ∧
  (∃ q r f, (answering a (ticking (client .init))).Emits .tickInit q .tick r f) ∧
  (∃ q r f, State.Emits { answering a (ticking (client .init)) with draws := [5] } .tickInit q .tick r f) ∧
  (∃ q r f, (answering a (ticking (client .initReboot))).Emits .tickInitReboot q .tick r f) ∧
  (∃ q r f, (answering a (ticking { client .requesting with elapsed := 6, retry := 2 })).Emits .tickRequesting q .tick r f) ∧
  (∃ q r f, (answering a (ticking (leased .bound 3149))).Emits .tickBound q .tick r f) ∧
  (∃ q r f, (answering a (ticking (leased .renewing 3149))).Emits .tickRenewing q .tick r f) ∧
  (∃ q r f, (answering a (ticking (leased .bound 1799))).Emits .tickBound q .tick r f) ∧
  (∃ q r f, (answering a State.reset).Emits (.arpRequest 0x020000000001 askForMe) q .rx r f) ∧
  (∃ q r f, (answering a State.reset).Emits (.icmpEcho 0x020000000001 0x0A000001 0 (zeros 4)) q .rx r f) ∧
  (∃ q r f, (answering a (ticking (client .selecting))).Emits (.dhcpOffer 0x0A000032 (leaseOpts none none)) q .rx r f)

theorem emittingRows (a : List TxAnswer) : EmittingRows a :=
  ⟨⟨_, _, _, .cmdArpResolve _ _ rfl⟩,
   ⟨_, _, _, .tickInit _ _ _ (.inr ⟨rfl, rfl, rfl⟩) rfl⟩,
   ⟨_, _, _, .tickInit _ _ _ (.inl ⟨_, rfl, rfl⟩) rfl⟩,
   ⟨_, _, _, .tickInitReboot _ _ _ (.inr ⟨rfl, rfl, rfl⟩) rfl⟩,
   ⟨_, _, _, .tickRequesting _ (by decide : 7 ≤ min (6 + 1) 0xFFFFFFFF) (by decide : 2 < 3) rfl⟩,
   ⟨_, _, _, .tickRebind _ 3150 _ (.inl rfl) rfl (by decide : 3150 < 3600) (by decide : 3150 ≤ 3150) nofun rfl⟩,
   ⟨_, _, _, .tickRebind _ 3150 _ (.inr (.inl rfl)) rfl (by decide : 3150 < 3600) (by decide : 3150 ≤ 3150) nofun rfl⟩,
   ⟨_, _, _, .tickRenew _ 1800 _ (.inl rfl) rfl (by decide : 1800 < 3600) (by decide : 1800 < 3150) (by decide : 1800 ≤ 1800) rfl rfl⟩,
   ⟨_, _, _, .arpRequest _ _ _ (by decide : (0x0A000002 : Ip) ≠ 0) rfl rfl⟩,
   ⟨_, _, _, .icmpEcho _ _ _ _ (by decide : (0x0A000002 : Ip) ≠ 0)⟩,
   ⟨_, _, _, .dhcpOffer _ _ _ _ rfl (by decide) rfl⟩⟩

theorem witness_TransmitErrorIsADrop :
    EmittingRows [.error] ∧ (answering [.error] State.reset).macRefuses ∧
    (answering [.error] (ticking (client .init))).macRefuses ∧ (answering [.error] (ticking (client .init))).tickPend ≠ 0 :=
  ⟨emittingRows _, ⟨_, rfl⟩, ⟨_, rfl⟩, by decide +kernel⟩
theorem witness_NothingShowsBeforeTheCommit :
    (answering [.wait] State.reset).held = none ∧
    ∃ t, exec (.cmdArpResolve 1) (answering [.wait] State.reset) = .next t ∧ t.held ≠ none := ⟨rfl, _, rfl, nofun⟩
theorem witness_NothingShowsBeforeTheCommit_rows :
    EmittingRows [.wait] ∧ (answering [.wait] State.reset).macWaits ∧ EmittingRows [.accept] ∧
    (answering [.accept] State.reset).macAccepts ∧ EmittingRows [] ∧ (answering [] State.reset).macAccepts :=
  ⟨emittingRows _, ⟨_, rfl⟩, emittingRows _, .inr ⟨_, rfl⟩, emittingRows _, .inl rfl⟩
theorem witness_HeldOperationResumes :
    ∀ k : OpKind, (busy k).env = [] ∧ (busy k).resetIn = false ∧
      (busy k).held = some ⟨k, State.reset.regs, arpRequestOut⟩ ∧ (busy k).tickPend ≠ 0 ∧ (busy k).macAccepts ∧
      (answering [.error] (busy k)).macRefuses ∧ (answering [.wait] (busy k)).macWaits :=
  fun _ => ⟨rfl, rfl, rfl, (by decide : (1 : BitVec 8) ≠ 0), .inl rfl, ⟨_, rfl⟩, ⟨_, rfl⟩⟩
theorem witness_DropsArePrecise :
    (receiving runtFrame).env = [] ∧ ∃ t, step (receiving runtFrame) = .next t ∧ t.regs.lastStatus ≠ 0 :=
  ⟨rfl, _, rfl, by decide +kernel⟩
theorem witness_AtMostOneFrameEachStep : ∃ t, step (receiving echoFrame) = .next t := ⟨_, rfl⟩
theorem witness_FramesReachNoHostFunction : ∃ t, exec .rx (receiving echoFrame) = .next t := ⟨_, rfl⟩
theorem witness_TimersStayBounded :
    (ticking (leased .bound 1799)).everyRegs (Regs.timersBounded .vectors) ∧
    (busy .tick).everyRegs (Regs.timersBounded .vectors) ∧ ∃ t, step (ticking (leased .bound 1799)) = .next t := by
  refine ⟨⟨by unfold Regs.timersBounded; decide +kernel, nofun⟩, ⟨by unfold Regs.timersBounded; decide +kernel, ?_⟩, _, rfl⟩
  intro h e; cases e; unfold Regs.timersBounded; decide +kernel
theorem witness_AddressesStayConsistent :
    (ticking (leased .bound 1799)).everyRegs Regs.addressesAgree ∧ (busy .rx).everyRegs Regs.addressesAgree ∧
    ∃ t, step (ticking (leased .bound 1799)) = .next t := by
  refine ⟨⟨by unfold Regs.addressesAgree; decide +kernel, nofun⟩, ⟨by unfold Regs.addressesAgree; decide +kernel, ?_⟩, _, rfl⟩
  intro h e; cases e; unfold Regs.addressesAgree; decide +kernel
theorem witness_PeerSlotAndStatusStaySound :
    (receiving arpRequestIn).everyRegs (fun r => r.peerSlotSound ∧ r.statusInTable) ∧
    ∃ t, step (receiving arpRequestIn) = .next t := ⟨⟨⟨by unfold Regs.peerSlotSound; decide +kernel, .ok, rfl⟩, nofun⟩, _, rfl⟩
theorem witness_InputsStaySound :
    (receiving arpRequestIn).inputsSound ∧ (busy .rx).inputsSound ∧ ∃ t, step (receiving arpRequestIn) = .next t := by
  refine ⟨⟨by decide +kernel, nofun, nofun⟩, ⟨by decide +kernel, nofun, ?_⟩, _, rfl⟩
  intro h e; cases e; decide +kernel
theorem witness_SentFramesFitTheMtu :
    (receiving arpRequestIn).inputsSound ∧ (after (step (receiving arpRequestIn))).map (fun t => t.txStream) = some [arpReplyOut] :=
  ⟨⟨by decide +kernel, nofun, nofun⟩, by decide +kernel⟩

/-- The row is well-formed, admitted by these registers, and in its format: what the round trips ask. -/
def roundTrips (i : Instr) (f : Format) (r : Regs) : Bool := i.WellFormed && i.admitted .vectors r && i.format == f

theorem witness_DecodeEncodeUpToArp :
    roundTrips .rx .operation State.reset.regs && roundTrips (.read 255) .statusRead State.reset.regs
      && roundTrips (.cmdReserved 3) .command State.reset.regs && roundTrips .tickRebooting .tick State.reset.regs
      && roundTrips (.ethRunt 13) .ethernet State.reset.regs && roundTrips (.ethArp 1 (arpPkt.take 27)) .ethernet State.reset.regs
      && roundTrips (.arpReply askForMe) .arp State.reset.regs := by decide +kernel
theorem witness_DecodeEncodeIpFamily :
    roundTrips (.ipIcmp 1 2 0x0A000002 (echoMsg.take 7)) .ipv4 State.reset.regs && roundTrips (.ipOther 2) .ipv4 State.reset.regs
      && roundTrips (.icmpEcho 1 2 3 (zeros 4)) .icmp State.reset.regs && roundTrips (.udpOther 67 67) .udp State.reset.regs
      && roundTrips (.udpDhcp []) .udp State.reset.regs && roundTrips (.tcpInspect ⟨1, 2, 3, 4, 0xF002⟩) .tcp State.reset.regs := by
  decide +kernel
theorem witness_DecodeEncodeDhcp :
    Params.vectors.wf && roundTrips (.dhcpOffer 1 (leaseOpts (some 1) none)) .dhcp (client .selecting)
      && roundTrips (.dhcpAckBind 1 (leaseOpts none none)) .dhcp (client .rebooting)
      && roundTrips (.dhcpAckExtend 1 noOpts) .dhcp (client .rebinding) && roundTrips .dhcpNak .dhcp (client .requesting)
      && roundTrips (.dhcpOther 2) .dhcp (client .bound) := by decide +kernel
theorem witness_DecoderAnswersAdmittedRows :
    decode .vectors State.reset.regs .frame echoFrame = .ok (.icmpEcho 0x020000000001 0x0A000001 0 (echoMsg.drop 4)) := by
  decide +kernel

end Sys2Proof.Tests
end

/-! The checksum field of a unit: what writing the field changes, what the receive checks read back, and the outgoing IPv4 header
and UDP datagram built with it (40_checksum.md R79, R81 to R83; 43_ipv4_demux.md R112; 45_udp_tcp.md R132). -/

namespace Sys2Proof.Machine

/-! ### The 2-byte field of a unit -/

section Field

variable {u : Bytes} {c : Nat}

theorem take_putHalf (v : Half) (h : c ≤ u.length) : (putHalf u c v).take c = u.take c := by
  rw [putHalf, List.append_assoc, List.take_left' (List.length_take_of_le h)]

theorem drop_putHalf (v : Half) (h : c ≤ u.length) : (putHalf u c v).drop (c + 2) = u.drop (c + 2) := by
  rw [putHalf, List.drop_left' (by simp [h])]

theorem be16_putHalf (v : Half) (h : c ≤ u.length) : be16 (putHalf u c v) c = v := by
  have htake : (u.take c).length = c := List.length_take_of_le h
  have hbytes : be16 (putHalf u c v) c = v.extractLsb' 8 8 ++ v.extractLsb' 0 8 := by
    simp [be16, byteAt, putHalf, bytes16, htake]
  rw [hbytes]
  exact BitVec.extractLsb'_append_extractLsb'

theorem bytes16_be16 (u : Bytes) (c : Nat) : bytes16 (be16 u c) = [byteAt u c, byteAt u (c + 1)] := by
  rw [bytes16, be16, BitVec.extractLsb'_append_eq_left, BitVec.extractLsb'_append_eq_right]

theorem byteAt_eq_getElem (h : c < u.length) : byteAt u c = u[c] := by simp [byteAt, h]

/-- Writing a field's own value changes nothing. -/
theorem putHalf_be16_self (h : c + 2 ≤ u.length) : putHalf u c (be16 u c) = u := by
  have hdrop : u.drop c = byteAt u c :: byteAt u (c + 1) :: u.drop (c + 2) := by
    rw [List.drop_eq_getElem_cons (by omega), List.drop_eq_getElem_cons (by omega), byteAt_eq_getElem, byteAt_eq_getElem]
  calc putHalf u c (be16 u c)
      = u.take c ++ u.drop c := by simp [putHalf, bytes16_be16, hdrop]
    _ = u := List.take_append_drop c u

end Field

/-! ### The checksum of a unit with the field zeroed -/

/-- The checksum depends on the segments' concatenation alone (R78). -/
theorem csum_congr {a b : List Bytes} (h : a.flatten = b.flatten) : csum a = csum b := by rw [csum, csum, h]

/-- What R79 and R82 take the checksum of, whatever value `v` was inserted: the unit that was built with a zero field. -/
theorem csum_zeroed_putHalf (pre : List Bytes) {u : Bytes} {c : Nat} (v : Half) (h : c + 2 ≤ u.length) (hz : be16 u c = 0) :
    csum (pre ++ [(putHalf u c v).take c, [0, 0], (putHalf u c v).drop (c + 2)]) = csum (pre ++ [u]) := by
  have hself : u.take c ++ [0, 0] ++ u.drop (c + 2) = u := by
    have hput := putHalf_be16_self h
    rwa [hz] at hput
  rw [take_putHalf v (by omega), drop_putHalf v (by omega)]
  apply csum_congr
  simpa using hself

/-- R79 accepts what R83 and R84 insert into a zero field. -/
theorem verifies_insertChecksum {u : Bytes} {c : Nat} (h : c + 2 ≤ u.length) (hz : be16 u c = 0) :
    verifies (insertChecksum u c) c = true := by
  have hcsum : csum [(insertChecksum u c).take c, [0, 0], (insertChecksum u c).drop (c + 2)] = csum [u] :=
    csum_zeroed_putHalf [] (csum [u]) h hz
  have hfield : be16 (insertChecksum u c) c = csum [u] := be16_putHalf _ (by omega)
  rw [verifies, hcsum, hfield, beq_self_eq_true]

/-! ### The UDP checksum field (R81, R82) -/

theorem udpTransmitField_zero : udpTransmitField 0 = 0xFFFF := rfl

theorem udpTransmitField_of_ne_zero {c : Half} (h : c ≠ 0) : udpTransmitField c = c := if_neg h

theorem udpTransmitField_ne_zero (c : Half) : udpTransmitField c ≠ 0 := by
  by_cases h : c = 0
  · rw [h, udpTransmitField_zero]; decide
  · rwa [udpTransmitField_of_ne_zero h]

theorem udpVerifies_iff (src dst : Ip) (u : Bytes) (c : Half)
    (hc : csum [pseudo src dst 17 (BitVec.ofNat 16 u.length), u.take 6, [0, 0], u.drop 8] = c) :
    udpVerifies src dst u = true ↔ be16 u 6 = 0 ∨ c = be16 u 6 ∨ (c = 0 ∧ be16 u 6 = 0xFFFF) := by
  simp only [udpVerifies, hc, Bool.or_eq_true, Bool.and_eq_true, beq_iff_eq, or_assoc]

/-- R82 accepts what R81 inserts into a zero field, a computed 0 sent as 0xFFFF included. -/
theorem udpVerifies_putHalf_udpTransmitField (src dst : Ip) {u : Bytes} (h : 8 ≤ u.length) (hz : be16 u 6 = 0) {c : Half}
    (hc : c = csum [pseudo src dst 17 (BitVec.ofNat 16 u.length), u]) :
    udpVerifies src dst (putHalf u 6 (udpTransmitField c)) = true := by
  have hsum : csum [pseudo src dst 17 (BitVec.ofNat 16 (putHalf u 6 (udpTransmitField c)).length),
      (putHalf u 6 (udpTransmitField c)).take 6, [0, 0], (putHalf u 6 (udpTransmitField c)).drop 8] = c := by
    rw [putHalf_length u 6 _ h]
    exact (csum_zeroed_putHalf [_] (udpTransmitField c) h hz).trans hc.symm
  rw [udpVerifies_iff src dst _ c hsum, be16_putHalf _ (by omega)]
  by_cases hzero : c = 0
  · exact .inr (.inr ⟨hzero, by rw [hzero, udpTransmitField_zero]⟩)
  · exact .inr (.inl (udpTransmitField_of_ne_zero hzero).symm)

/-! ### The outgoing IPv4 datagram (R112) -/

theorem be16_ipHeaderZero_checksum (p : Params) (proto : Byte) (src dst : Ip) (n : Nat) :
    be16 (ipHeaderZero p proto src dst n) 10 = 0 := by
  have hbytes : be16 (ipHeaderZero p proto src dst n) 10 = (0x00 : Byte) ++ (0x00 : Byte) := rfl
  rw [hbytes]; decide

/-- The first 20 bytes of a datagram are R112's header with the checksum of R83 inserted. -/
theorem take_ipDatagram (p : Params) (proto : Byte) (src dst : Ip) (payload : Bytes) :
    (ipDatagram p proto src dst payload).take 20 = insertChecksum (ipHeaderZero p proto src dst payload.length) 10 :=
  List.take_left' (by rw [insertChecksum, putHalf_length _ _ _ (by simp), ipHeaderZero_length])

/-- Settles O28: the bytes are R112's by evaluation of the header, and the header is a unit whose zero field got its checksum. -/
theorem outgoingIpv4Header : Obligations.OutgoingIpv4Header := by
  intro p proto src dst payload _
  refine ⟨csum [ipHeaderZero p proto src dst payload.length], rfl, rfl, ?_⟩
  rw [take_ipDatagram]
  exact verifies_insertChecksum (by simp) (be16_ipHeaderZero_checksum ..)

/-! ### The outgoing UDP datagram (R132) -/

theorem be16_udpZero_checksum (sport dport : Half) (data : Bytes) : be16 (udpZero sport dport data) 6 = 0 := by
  have hbytes : be16 (udpZero sport dport data) 6 = (0x00 : Byte) ++ (0x00 : Byte) := rfl
  rw [hbytes]; decide

theorem udpVerifies_udpDatagram (src dst : Ip) (sport dport : Half) (data : Bytes) :
    udpVerifies src dst (udpDatagram src dst sport dport data) = true :=
  udpVerifies_putHalf_udpTransmitField src dst (by simp) (be16_udpZero_checksum sport dport data) rfl

theorem udpDatagram_eq (src dst : Ip) (sport dport : Half) (data : Bytes) :
    udpDatagram src dst sport dport data =
      bytes16 sport ++ bytes16 dport ++ bytes16 (BitVec.ofNat 16 (8 + data.length))
        ++ bytes16 (udpTransmitField
          (csum [pseudo src dst 17 (BitVec.ofNat 16 (8 + data.length)), udpZero sport dport data])) ++ data := by
  rw [udpDatagram, udpZero_length]
  rfl

/-- Settles O33: the field is R81's, so it is not 0, and R82 accepts it. -/
theorem outgoingUdpDatagram : Obligations.OutgoingUdpDatagram := by
  intro src dst sport dport data _
  exact ⟨csum [pseudo src dst 17 (BitVec.ofNat 16 (8 + data.length)), udpZero sport dport data], _, rfl, rfl,
    udpTransmitField_ne_zero _, udpDatagram_eq .., udpVerifies_udpDatagram ..⟩

end Sys2Proof.Machine

/-! The Ethernet level of the RX operation: what `classify` answers for each class of frames, and what RX then leaves
(41_ethernet_classifier.md R86 to R92). -/

namespace Sys2Proof.Machine

/-! ### The classes of frames -/

section Classify

variable {p : Params} {r : Regs} {f : Bytes}

theorem classify_runt (h : f.length < 14) : classify p r f = .drop .ethRunt := if_pos h

theorem classify_oversize (h : 1514 < f.length) : classify p r f = .drop .ethOversize := by
  have hmax : Config.maxFrameLen < f.length := h
  simp only [classify, if_neg (show ¬ f.length < 14 by omega), if_pos hmax, ethOversizeEnd]

/-- R88 to R91, on a frame that R87 lets through: the class is decided by the EtherType field alone. -/
theorem classify_of_length (hmin : 14 ≤ f.length) (hmax : f.length ≤ 1514) :
    classify p r f =
      if (be16 f 12).toNat ≤ 0x05DC then .drop .eth8023
      else if be16 f 12 = 0x0806 then arpEnd r (be48 f 6) (f.drop 14)
      else if be16 f 12 = 0x0800 then ipv4End p r (be48 f 6) (f.drop 14)
      else .drop .ethUnknownType := by
  have hfits : ¬ Config.maxFrameLen < f.length := Nat.not_lt.mpr hmax
  simp only [classify, if_neg (Nat.not_lt.mpr hmin), if_neg hfits]
  rfl

theorem classify_8023 (hmin : 14 ≤ f.length) (hmax : f.length ≤ 1514) (het : (be16 f 12).toNat ≤ 0x05DC) :
    classify p r f = .drop .eth8023 := by rw [classify_of_length hmin hmax, if_pos het]

theorem classify_arp (hmin : 14 ≤ f.length) (hmax : f.length ≤ 1514) (het : be16 f 12 = 0x0806) :
    classify p r f = arpEnd r (be48 f 6) (f.drop 14) := by
  rw [classify_of_length hmin hmax, het, if_neg (by decide), if_pos rfl]

theorem classify_ipv4 (hmin : 14 ≤ f.length) (hmax : f.length ≤ 1514) (het : be16 f 12 = 0x0800) :
    classify p r f = ipv4End p r (be48 f 6) (f.drop 14) := by
  rw [classify_of_length hmin hmax, het, if_neg (by decide), if_neg (by decide), if_pos rfl]

theorem classify_other (hmin : 14 ≤ f.length) (hmax : f.length ≤ 1514) (hlen : 0x05DC < (be16 f 12).toNat)
    (harp : be16 f 12 ≠ 0x0806) (hip : be16 f 12 ≠ 0x0800) : classify p r f = .drop .ethUnknownType := by
  rw [classify_of_length hmin hmax, if_neg (Nat.not_le.mpr hlen), if_neg harp, if_neg hip]

end Classify

/-! ### RX on a frame the receive MAC has not flagged -/

/-- R86, R92: the operation ends as the classifier says. -/
theorem exec_rx_of_unflagged {s : State} {f : Bytes} {rest : List RxFrame} (h : s.rxFifo = ⟨f, false⟩ :: rest) :
    exec .rx s = .next (s.complete .rx (classify s.params s.regs f)) := by
  simp only [exec, execRx, h]
  rfl

theorem exec_rx_of_classify_drop {s : State} {f : Bytes} {rest : List RxFrame} {c : StatusCode}
    (h : s.rxFifo = ⟨f, false⟩ :: rest) (hdrop : classify s.params s.regs f = .drop c) (hc : c ≠ .ok) :
    exec .rx s = .next (s.rxDropped c.code) := by
  rw [exec_rx_of_unflagged h, hdrop, State.complete_drop, State.close_rx_drop s c hc]

/-! ### The rows the classifier dispatches to -/

theorem exec_ethArp (ethSrc : Mac) (pkt : Bytes) (s : State) :
    exec (.ethArp ethSrc pkt) s = .next (s.complete .rx (arpEnd s.regs ethSrc pkt)) := rfl

theorem exec_ethIpv4 (ethSrc : Mac) (dgram : Bytes) (s : State) :
    exec (.ethIpv4 ethSrc dgram) s = .next (s.complete .rx (ipv4End s.params s.regs ethSrc dgram)) := rfl

/-- Settles O60: RX ends as the classifier says, and the classifier's answer for an ARP or an IPv4 frame is the one its row
completes with. -/
theorem ethernetChecksInOrder : Obligations.EthernetChecksInOrder := by
  rintro s f rest _ hfifo rfl
  refine ⟨fun hrunt => ?runt, fun hlong => ?oversize,
    fun hmin hmax => ⟨fun het => ?len8023, fun het => ?arp, fun het => ?ipv4, fun hlen harp hip => ?other⟩⟩
  case runt => exact exec_rx_of_classify_drop hfifo (classify_runt hrunt) (by decide)
  case oversize => exact exec_rx_of_classify_drop hfifo (classify_oversize hlong) (by decide)
  case len8023 => exact exec_rx_of_classify_drop hfifo (classify_8023 hmin hmax het) (by decide)
  case arp => exact ⟨_, by rw [exec_rx_of_unflagged hfifo, classify_arp hmin hmax het], exec_ethArp ..⟩
  case ipv4 => exact ⟨_, by rw [exec_rx_of_unflagged hfifo, classify_ipv4 hmin hmax het], exec_ethIpv4 ..⟩
  case other => exact exec_rx_of_classify_drop hfifo (classify_other hmin hmax hlen harp hip) (by decide)

end Sys2Proof.Machine

/-! The ARP level of the RX operation: the entry checks, the rows of `oper`, and what each leaves (42_arp.md R93 to R98). -/

namespace Sys2Proof.Machine

/-! ### How an operation ends on RX -/

theorem State.complete_rx_drop (s : State) {c : StatusCode} (hc : c ≠ .ok) : s.complete .rx (.drop c) = s.rxDropped c.code := by
  rw [State.complete_drop, State.close_rx_drop s c hc]

theorem State.complete_rx_quiet (s : State) (r : Regs) : s.complete .rx (.finish r none) = s.rxQuiet r := by
  rw [State.complete_finish_none, State.close_rx_ok]

theorem State.complete_rx_sent {s : State} (h : s.macAccepts) (r : Regs) (t : Bytes) :
    s.complete .rx (.finish r (some t)) = s.rxSent r t := by
  rw [State.complete_finish_some, State.offer_of_accepts s .rx r t h, State.commitSent_rx]

/-! ### The entry checks (R93, R94), in their order -/

section Entry

variable {pkt : Bytes}

theorem arpEntry_short (h : pkt.length < 28) : arpEntry pkt = .error .arpShort := if_pos h

/-- R94 on a packet long enough for R93, with the constants of the configuration written out. -/
theorem arpEntry_of_length (h : 28 ≤ pkt.length) :
    arpEntry pkt =
      if be16 pkt 0 ≠ 1 then .error .arpBadHtype
      else if be16 pkt 2 ≠ 0x0800 then .error .arpBadPtype
      else if byteAt pkt 4 ≠ 6 then .error .arpBadHlen
      else if byteAt pkt 5 ≠ 4 then .error .arpBadPlen
      else .ok (be16 pkt 6, ⟨be48 pkt 8, be32 pkt 14, be48 pkt 18, be32 pkt 24⟩) := if_neg (Nat.not_lt.mpr h)

theorem arpEntry_badHtype (h : 28 ≤ pkt.length) (hhtype : be16 pkt 0 ≠ 1) : arpEntry pkt = .error .arpBadHtype := by
  rw [arpEntry_of_length h, if_pos hhtype]

theorem arpEntry_badPtype (h : 28 ≤ pkt.length) (hhtype : be16 pkt 0 = 1) (hptype : be16 pkt 2 ≠ 0x0800) :
    arpEntry pkt = .error .arpBadPtype := by
  rw [arpEntry_of_length h, if_neg (not_not.mpr hhtype), if_pos hptype]

theorem arpEntry_badHlen (h : 28 ≤ pkt.length) (hhtype : be16 pkt 0 = 1) (hptype : be16 pkt 2 = 0x0800)
    (hhlen : byteAt pkt 4 ≠ 6) : arpEntry pkt = .error .arpBadHlen := by
  rw [arpEntry_of_length h, if_neg (not_not.mpr hhtype), if_neg (not_not.mpr hptype), if_pos hhlen]

theorem arpEntry_badPlen (h : 28 ≤ pkt.length) (hhtype : be16 pkt 0 = 1) (hptype : be16 pkt 2 = 0x0800)
    (hhlen : byteAt pkt 4 = 6) (hplen : byteAt pkt 5 ≠ 4) : arpEntry pkt = .error .arpBadPlen := by
  rw [arpEntry_of_length h, if_neg (not_not.mpr hhtype), if_neg (not_not.mpr hptype), if_neg (not_not.mpr hhlen), if_pos hplen]

theorem arpEntry_ok (h : 28 ≤ pkt.length) (hhtype : be16 pkt 0 = 1) (hptype : be16 pkt 2 = 0x0800)
    (hhlen : byteAt pkt 4 = 6) (hplen : byteAt pkt 5 = 4) :
    arpEntry pkt = .ok (be16 pkt 6, ⟨be48 pkt 8, be32 pkt 14, be48 pkt 18, be32 pkt 24⟩) := by
  rw [arpEntry_of_length h, if_neg (not_not.mpr hhtype), if_neg (not_not.mpr hptype), if_neg (not_not.mpr hhlen),
    if_neg (not_not.mpr hplen)]

end Entry

/-! ### The dispatch on `oper` (R94, R97) -/

section Dispatch

variable {r : Regs} {ethSrc : Mac} {pkt : Bytes} {oper : Half} {a : ArpAddrs}

theorem arpEnd_of_error {c : StatusCode} (h : arpEntry pkt = .error c) : arpEnd r ethSrc pkt = .drop c := by
  simp only [arpEnd, h]

theorem arpEnd_of_ok (h : arpEntry pkt = .ok (oper, a)) :
    arpEnd r ethSrc pkt =
      if oper = 1 then arpRequestEnd r ethSrc a else if oper = 2 then arpReplyEnd r a else .drop .arpBadOper := by
  simp only [arpEnd, h, arpBadOperEnd]

end Dispatch

/-! ### The two rows with an effect (R95, R96) -/

section Rows

variable {r : Regs} {ethSrc : Mac} {a : ArpAddrs}

theorem arpRequestEnd_notForUs (h : r.myIp = 0 ∨ a.tpa ≠ r.myIp) : arpRequestEnd r ethSrc a = .drop .arpNotForUs := if_pos h

theorem arpRequestEnd_forUs (haddr : r.myIp ≠ 0) (htpa : a.tpa = r.myIp) :
    arpRequestEnd r ethSrc a =
      .finish { r with peerIp := a.spa, peerMac := a.sha, peerSt := .resolved } (some (arpReplyFrame r ethSrc a.sha a.spa)) :=
  if_neg (not_or.mpr ⟨haddr, not_not.mpr htpa⟩)

theorem arpReplyEnd_expected (hst : r.peerSt = .pending) (hspa : a.spa = r.peerIp) :
    arpReplyEnd r a = .finish { r with peerMac := a.sha, peerSt := .resolved } none := if_pos ⟨hst, hspa⟩

theorem arpReplyEnd_unsolicited (h : r.peerSt ≠ .pending ∨ a.spa ≠ r.peerIp) : arpReplyEnd r a = .drop .arpUnsolicited :=
  if_neg (not_and_or.mpr h)

end Rows

/-- R98's frame byte for byte. -/
theorem arpReplyFrame_eq (r : Regs) (ethSrc sha : Mac) (spa : Ip) :
    arpReplyFrame r ethSrc sha spa =
      bytes48 ethSrc ++ bytes48 r.myMac ++ [0x08, 0x06] ++ [0x00, 0x01, 0x08, 0x00, 0x06, 0x04] ++ [0x00, 0x02]
        ++ bytes48 r.myMac ++ bytes32 r.myIp ++ bytes48 sha ++ bytes32 spa := by
  have htype : bytes16 Config.etherTypeArp = [0x08, 0x06] := by decide
  have hoper : bytes16 2 = [0x00, 0x02] := by decide
  simp only [arpReplyFrame, ethHeader, arpPacket, htype, hoper, List.append_assoc]

/-! ### The ARP instructions -/

theorem exec_arpRequest (ethSrc : Mac) (a : ArpAddrs) (s : State) :
    exec (.arpRequest ethSrc a) s = .next (s.complete .rx (arpRequestEnd s.regs ethSrc a)) := rfl

theorem exec_arpReply (a : ArpAddrs) (s : State) :
    exec (.arpReply a) s = .next (s.complete .rx (arpReplyEnd s.regs a)) := rfl

theorem exec_ethArp_of_drop {ethSrc : Mac} {pkt : Bytes} {s : State} {c : StatusCode}
    (hdrop : arpEnd s.regs ethSrc pkt = .drop c) (hc : c ≠ .ok) :
    exec (.ethArp ethSrc pkt) s = .next (s.rxDropped c.code) := by
  rw [exec_ethArp, hdrop, State.complete_rx_drop s hc]

/-- Settles O24: a failing check is the entry's error, and a packet that passes ends as the row of its `oper` does on the
addresses the entry extracts. -/
theorem ethArpChecksThenRunsTheRowOfOper : Obligations.EthArpChecksThenRunsTheRowOfOper := by
  intro ethSrc pkt s
  refine ⟨fun hshort => ?short, fun hlen => ⟨fun hhtype => ?badHtype, fun hhtype hptype => ?badPtype,
    fun hhtype hptype hhlen => ?badHlen, fun hhtype hptype hhlen hplen => ?badPlen, fun hhtype hptype hhlen hplen => ?passed⟩⟩
  case short => exact exec_ethArp_of_drop (arpEnd_of_error (arpEntry_short hshort)) (by decide)
  case badHtype => exact exec_ethArp_of_drop (arpEnd_of_error (arpEntry_badHtype hlen hhtype)) (by decide)
  case badPtype => exact exec_ethArp_of_drop (arpEnd_of_error (arpEntry_badPtype hlen hhtype hptype)) (by decide)
  case badHlen => exact exec_ethArp_of_drop (arpEnd_of_error (arpEntry_badHlen hlen hhtype hptype hhlen)) (by decide)
  case badPlen => exact exec_ethArp_of_drop (arpEnd_of_error (arpEntry_badPlen hlen hhtype hptype hhlen hplen)) (by decide)
  case passed =>
    rintro a rfl
    have hrow := arpEnd_of_ok (r := s.regs) (ethSrc := ethSrc) (arpEntry_ok hlen hhtype hptype hhlen hplen)
    refine ⟨fun hreq => ?request, fun hrep => ?reply, fun hnreq hnrep => ?other⟩
    case request =>
      rw [hreq, if_pos rfl] at hrow
      exact ⟨_, by rw [exec_ethArp, hrow], exec_arpRequest ..⟩
    case reply =>
      rw [hrep, if_neg (by decide), if_pos rfl] at hrow
      exact ⟨_, by rw [exec_ethArp, hrow], exec_arpReply ..⟩
    case other =>
      rw [if_neg hnreq, if_neg hnrep] at hrow
      exact exec_ethArp_of_drop hrow (by decide)

/-- Settles O22, by R95's two cases; the frame's bytes are R98's. -/
theorem arpRequestIsAnswered : Obligations.ArpRequestIsAnswered := by
  intro ethSrc a s
  refine ⟨fun haddr htpa hmac => ?answered, fun hnot => ?dropped⟩
  case answered => rw [exec_arpRequest, arpRequestEnd_forUs haddr htpa, State.complete_rx_sent hmac, arpReplyFrame_eq]
  case dropped =>
    rw [exec_arpRequest, arpRequestEnd_notForUs hnot, State.complete_rx_drop s (by decide)]
    rfl

/-- Settles O23, by R96's two cases. -/
theorem arpReplyCompletesTheResolution : Obligations.ArpReplyCompletesTheResolution := by
  intro a s
  refine ⟨fun hst hspa => ?completed, fun hnot => ?dropped⟩
  case completed => rw [exec_arpReply, arpReplyEnd_expected hst hspa, State.complete_rx_quiet]
  case dropped =>
    rw [exec_arpReply, arpReplyEnd_unsolicited hnot, State.complete_rx_drop s (by decide)]
    rfl

end Sys2Proof.Machine

/-! The IPv4 level of the RX operation: the header checks in their order, the row of each protocol, and what each leaves
(43_ipv4_demux.md R100 to R111). -/

namespace Sys2Proof.Machine

/-! ### The fields the checks read, as the bytes of the datagram -/

section Fields

variable {f : Bytes} {i n : Nat}

theorem byteAt_take (h : i < n) : byteAt (f.take n) i = byteAt f i := by
  simp [byteAt, List.getD_eq_getElem?_getD, List.getElem?_take_of_lt h]

theorem be16_take (h : i + 1 < n) : be16 (f.take n) i = be16 f i := by
  rw [be16, byteAt_take (by omega), byteAt_take h, ← be16]

theorem be32_take (h : i + 3 < n) : be32 (f.take n) i = be32 f i := by
  rw [be32, be16_take (by omega), be16_take (by omega), ← be32]

theorem toNat_lowNibble (b : Byte) : (b.extractLsb' 0 4).toNat = b.toNat % 16 := by
  simp [BitVec.extractLsb'_toNat]

theorem toNat_highNibble (b : Byte) : (b.extractLsb' 4 4).toNat = b.toNat / 16 := by
  have hb := b.isLt
  simp only [BitVec.extractLsb'_toNat, Nat.shiftRight_eq_div_pow]
  omega

theorem highNibble_eq_four_iff (b : Byte) : b.extractLsb' 4 4 = 4 ↔ b.toNat / 16 = 4 := by
  rw [← toNat_highNibble, ← BitVec.toNat_inj]
  rfl

/-- R106's two masks cover the low 14 bits: bits 15 and 14 are not read. -/
theorem isFragment_iff (ff : Half) : isFragment ff = true ↔ ff.toNat % 0x4000 ≠ 0 := by
  have hmasks : (ff &&& 0x2000) ||| (ff &&& 0x1FFF) = ff &&& 0x3FFF := BitVec.and_or_distrib_left.symm
  have hlow : (ff &&& 0x3FFF).toNat = ff.toNat % 0x4000 := by
    rw [BitVec.toNat_and]
    exact Nat.and_two_pow_sub_one_eq_mod ff.toNat 14
  have hzero : ff &&& 0x3FFF = 0 ↔ ff &&& 0x2000 = 0 ∧ ff &&& 0x1FFF = 0 := by
    rw [← hmasks]
    exact BitVec.or_eq_zero_iff
  have hnat : (ff &&& 0x3FFF).toNat = 0 ↔ ff &&& 0x3FFF = 0 := BitVec.toNat_inj (y := 0)
  rw [← hlow, ne_eq, hnat, hzero, not_and_or]
  simp only [isFragment, Bool.or_eq_true, bne_iff_ne, ne_eq]

/-- R79 on the first `n` bytes, with the bytes it sums written as ranges of the whole. -/
theorem verifies_take_iff {c : Nat} (h : c + 2 ≤ n) :
    verifies (f.take n) c = true ↔ csum [f.take c, [0, 0], slice f (c + 2) n] = be16 f c := by
  rw [verifies, be16_take (by omega), List.take_take, min_eq_left (by omega), beq_iff_eq, slice]

end Fields

/-! ### The entry checks (R100 to R106), in their order -/

/-- R100 to R102 pass: the datagram is an IPv4 one that holds its whole header, of `hl` bytes. -/
structure HoldsIpv4Header (d : Bytes) (hl : Nat) : Prop where
  holdsFixedPart : 20 ≤ d.length
  version : (byteAt d 0).toNat / 16 = 4
  headerLength : hl = (byteAt d 0).toNat % 16 * 4
  coversFixedPart : 20 ≤ hl
  fits : hl ≤ d.length

section Entry

variable {r : Regs} {d : Bytes} {hl tot : Nat}

theorem ipEntry_short (h : d.length < 20) : ipEntry r d = .error .ipShort := if_pos h

/-- R101 and R102 on a datagram long enough for R100, with the header's length in bytes. -/
theorem ipEntry_of_length (h : 20 ≤ d.length) (hhl : hl = (byteAt d 0).toNat % 16 * 4) :
    ipEntry r d =
      if (byteAt d 0).toNat / 16 ≠ 4 then .error .ipBadVersion
      else if hl < 20 ∨ d.length < hl then .error .ipBadIhl
      else ipHeaderChecks r d hl := by
  have hwords : (byteAt d 0).toNat % 16 < 5 ↔ hl < 20 := by omega
  simp only [ipEntry, if_neg (Nat.not_lt.mpr h), toNat_lowNibble, highNibble_eq_four_iff, ne_eq, hwords, ← hhl]

theorem ipEntry_badVersion (h : 20 ≤ d.length) (hversion : (byteAt d 0).toNat / 16 ≠ 4) :
    ipEntry r d = .error .ipBadVersion := by rw [ipEntry_of_length h rfl, if_pos hversion]

theorem ipEntry_badIhl (h : 20 ≤ d.length) (hhl : hl = (byteAt d 0).toNat % 16 * 4)
    (hversion : (byteAt d 0).toNat / 16 = 4) (hbad : hl < 20 ∨ d.length < hl) : ipEntry r d = .error .ipBadIhl := by
  rw [ipEntry_of_length h hhl, if_neg (not_not.mpr hversion), if_pos hbad]

/-- R103 to R106 behind R100 to R102, with the fields read from the datagram itself. -/
theorem ipEntry_of_header (h : HoldsIpv4Header d hl) (htot : tot = (be16 d 2).toNat) :
    ipEntry r d =
      if csum [d.take 10, [0, 0], slice d 12 hl] ≠ be16 d 10 then .error .ipBadChecksum
      else if tot < hl ∨ d.length < tot then .error .ipBadTotlen
      else if acceptsDst r (be32 d 16) = false then .error .ipNotForUs
      else if (be16 d 6).toNat % 0x4000 ≠ 0 then .error .ipFragment
      else .ok ⟨be32 d 12, be32 d 16, byteAt d 9, slice d hl tot⟩ := by
  obtain ⟨hlen, hversion, hhl, hmin, hfits⟩ := h
  have hheader : ¬ (hl < 20 ∨ d.length < hl) := by omega
  rw [ipEntry_of_length hlen hhl, if_neg (not_not.mpr hversion), if_neg hheader, ipHeaderChecks]
  have h2 : be16 (d.take hl) 2 = be16 d 2 := be16_take (by omega)
  have h6 : be16 (d.take hl) 6 = be16 d 6 := be16_take (by omega)
  have h9 : byteAt (d.take hl) 9 = byteAt d 9 := byteAt_take (by omega)
  have h12 : be32 (d.take hl) 12 = be32 d 12 := be32_take (by omega)
  have h16 : be32 (d.take hl) 16 = be32 d 16 := be32_take (by omega)
  have hsum := verifies_take_iff (f := d) (c := 10) (n := hl) (by omega)
  simp only [h2, h6, h9, h12, h16, ← htot, Bool.not_eq_true', ← Bool.not_eq_true, hsum, isFragment_iff, ne_eq]

theorem ipEntry_badChecksum (h : HoldsIpv4Header d hl) (hsum : csum [d.take 10, [0, 0], slice d 12 hl] ≠ be16 d 10) :
    ipEntry r d = .error .ipBadChecksum := by rw [ipEntry_of_header h rfl, if_pos hsum]

variable (h : HoldsIpv4Header d hl) (htot : tot = (be16 d 2).toNat)
  (hsum : csum [d.take 10, [0, 0], slice d 12 hl] = be16 d 10)

include h htot hsum

theorem ipEntry_badTotlen (hbad : tot < hl ∨ d.length < tot) : ipEntry r d = .error .ipBadTotlen := by
  rw [ipEntry_of_header h htot, if_neg (not_not.mpr hsum), if_pos hbad]

/-- R105 and R106 behind R100 to R104. -/
theorem ipEntry_of_totalLength (hmin : hl ≤ tot) (hmax : tot ≤ d.length) :
    ipEntry r d =
      if acceptsDst r (be32 d 16) = false then .error .ipNotForUs
      else if (be16 d 6).toNat % 0x4000 ≠ 0 then .error .ipFragment
      else .ok ⟨be32 d 12, be32 d 16, byteAt d 9, slice d hl tot⟩ := by
  have hfits : ¬ (tot < hl ∨ d.length < tot) := by omega
  rw [ipEntry_of_header h htot, if_neg (not_not.mpr hsum), if_neg hfits]

theorem ipEntry_notForUs (hmin : hl ≤ tot) (hmax : tot ≤ d.length) (hdst : acceptsDst r (be32 d 16) = false) :
    ipEntry r d = .error .ipNotForUs := by rw [ipEntry_of_totalLength h htot hsum hmin hmax, if_pos hdst]

theorem ipEntry_fragment (hmin : hl ≤ tot) (hmax : tot ≤ d.length) (hdst : acceptsDst r (be32 d 16) = true)
    (hfrag : (be16 d 6).toNat % 0x4000 ≠ 0) : ipEntry r d = .error .ipFragment := by
  rw [ipEntry_of_totalLength h htot hsum hmin hmax, if_neg (by simp [hdst]), if_pos hfrag]

theorem ipEntry_ok (hmin : hl ≤ tot) (hmax : tot ≤ d.length) (hdst : acceptsDst r (be32 d 16) = true)
    (hfrag : (be16 d 6).toNat % 0x4000 = 0) :
    ipEntry r d = .ok ⟨be32 d 12, be32 d 16, byteAt d 9, slice d hl tot⟩ := by
  rw [ipEntry_of_totalLength h htot hsum hmin hmax, if_neg (by simp [hdst]), if_neg (not_not.mpr hfrag)]

end Entry

/-! ### The dispatch on the protocol (R107 to R111) -/

section Dispatch

variable {p : Params} {r : Regs} {ethSrc : Mac} {d : Bytes}

theorem ipv4End_of_error {c : StatusCode} (h : ipEntry r d = .error c) : ipv4End p r ethSrc d = .drop c := by
  simp only [ipv4End, h]

theorem ipv4End_of_ok {src dst : Ip} {proto : Byte} {payload : Bytes} (h : ipEntry r d = .ok ⟨src, dst, proto, payload⟩) :
    ipv4End p r ethSrc d =
      if proto = 1 then icmpEnd p r ethSrc src payload
      else if proto = 17 then udpEnd p r src dst payload
      else if proto = 6 then tcpEnd r payload
      else .drop .ipUnknownProto := by
  simp only [ipv4End, h]
  rfl

end Dispatch

/-! ### The IPv4 instructions -/

theorem exec_ipIcmp (ethSrc : Mac) (src dst : Ip) (msg : Bytes) (s : State) :
    exec (.ipIcmp ethSrc src dst msg) s = .next (s.complete .rx (icmpEnd s.params s.regs ethSrc src msg)) := rfl

theorem exec_ipUdp (src dst : Ip) (payload : Bytes) (s : State) :
    exec (.ipUdp src dst payload) s = .next (s.complete .rx (udpEnd s.params s.regs src dst payload)) := rfl

theorem exec_ipTcp (segment : Bytes) (s : State) :
    exec (.ipTcp segment) s = .next (s.complete .rx (tcpEnd s.regs segment)) := rfl

theorem exec_ethIpv4_of_drop {ethSrc : Mac} {d : Bytes} {s : State} {c : StatusCode}
    (hdrop : ipv4End s.params s.regs ethSrc d = .drop c) (hc : c ≠ .ok) :
    exec (.ethIpv4 ethSrc d) s = .next (s.rxDropped c.code) := by
  rw [exec_ethIpv4, hdrop, State.complete_rx_drop s hc]

theorem exec_ethIpv4_of_error {ethSrc : Mac} {d : Bytes} {s : State} {c : StatusCode}
    (h : ipEntry s.regs d = .error c) (hc : c ≠ .ok) : exec (.ethIpv4 ethSrc d) s = .next (s.rxDropped c.code) :=
  exec_ethIpv4_of_drop (ipv4End_of_error h) hc

/-- Settles O25: each clause is one error of the entry, and an error is dropped under its code. -/
theorem ipv4ChecksInOrder : Obligations.Ipv4ChecksInOrder := by
  intro ethSrc d s hl tot hhl htot
  refine ⟨fun hshort => ?short, fun hlen hversion => ?badVersion,
    fun hlen hversion => ⟨fun hbad => ?badIhl, fun hmin hfits => ?header⟩⟩
  case short => exact exec_ethIpv4_of_error (ipEntry_short hshort) (by decide)
  case badVersion => exact exec_ethIpv4_of_error (ipEntry_badVersion hlen hversion) (by decide)
  case badIhl => exact exec_ethIpv4_of_error (ipEntry_badIhl hlen hhl hversion hbad) (by decide)
  case header =>
    have header : HoldsIpv4Header d hl := ⟨hlen, hversion, hhl, hmin, hfits⟩
    refine ⟨fun hsum => ?badChecksum, fun hsum => ⟨fun hbad => ?badTotlen,
      fun hlow hhigh => ⟨fun hdst => ?notForUs, fun hdst hfrag => ?fragment⟩⟩⟩
    case badChecksum => exact exec_ethIpv4_of_error (ipEntry_badChecksum header hsum) (by decide)
    case badTotlen => exact exec_ethIpv4_of_error (ipEntry_badTotlen header htot hsum hbad) (by decide)
    case notForUs => exact exec_ethIpv4_of_error (ipEntry_notForUs header htot hsum hlow hhigh hdst) (by decide)
    case fragment => exact exec_ethIpv4_of_error (ipEntry_fragment header htot hsum hlow hhigh hdst hfrag) (by decide)

/-- Settles O26: the entry hands on the addresses, the protocol and R104's payload, and the row of that protocol completes with
the same end. -/
theorem ethIpv4RunsTheRowOfTheProtocol : Obligations.EthIpv4RunsTheRowOfTheProtocol := by
  intro ethSrc d s hl tot hhl htot hlen hversion hmin hfits hsum hlow hhigh hdst hfrag
  have hentry := ipEntry_ok ⟨hlen, hversion, hhl, hmin, hfits⟩ htot hsum hlow hhigh hdst hfrag
  have hrow := ipv4End_of_ok (p := s.params) (ethSrc := ethSrc) hentry
  refine ⟨fun hproto => ?icmp, fun hproto => ?udp, fun hproto => ?tcp, fun hnicmp hnudp hntcp => ?other⟩
  case icmp =>
    rw [hproto, if_pos rfl] at hrow
    exact ⟨_, by rw [exec_ethIpv4, hrow], exec_ipIcmp ..⟩
  case udp =>
    rw [hproto, if_neg (by decide), if_pos rfl] at hrow
    exact ⟨_, by rw [exec_ethIpv4, hrow], exec_ipUdp ..⟩
  case tcp =>
    rw [hproto, if_neg (by decide), if_neg (by decide), if_pos rfl] at hrow
    exact ⟨_, by rw [exec_ethIpv4, hrow], exec_ipTcp ..⟩
  case other =>
    rw [if_neg hnicmp, if_neg hnudp, if_neg hntcp] at hrow
    exact exec_ethIpv4_of_drop hrow (by decide)

end Sys2Proof.Machine

/-! The ICMP level of the RX operation: the message checks in their order, the row of each type, and the echo reply byte for byte
(44_icmp.md R115 to R120). -/

namespace Sys2Proof.Machine

/-! ### The entry checks (R115, R116), in their order -/

section Entry

variable {m : Bytes}

theorem icmpEntry_short (h : m.length < 8) : icmpEntry m = .error .icmpShort := if_pos h

/-- R116 on a message long enough for R115, with R79's checksum written out. -/
theorem icmpEntry_of_length (h : 8 ≤ m.length) :
    icmpEntry m =
      if csum [m.take 2, [0, 0], m.drop 4] ≠ be16 m 2 then .error .icmpBadChecksum
      else .ok ⟨byteAt m 0, byteAt m 1, m.drop 4⟩ := by
  simp only [icmpEntry, if_neg (Nat.not_lt.mpr h), verifies, Bool.not_eq_true', beq_eq_false_iff_ne]

theorem icmpEntry_badChecksum (h : 8 ≤ m.length) (hsum : csum [m.take 2, [0, 0], m.drop 4] ≠ be16 m 2) :
    icmpEntry m = .error .icmpBadChecksum := by rw [icmpEntry_of_length h, if_pos hsum]

theorem icmpEntry_ok (h : 8 ≤ m.length) (hsum : csum [m.take 2, [0, 0], m.drop 4] = be16 m 2) :
    icmpEntry m = .ok ⟨byteAt m 0, byteAt m 1, m.drop 4⟩ := by rw [icmpEntry_of_length h, if_neg (not_not.mpr hsum)]

end Entry

/-! ### The dispatch on the type (R117, R118) -/

section Dispatch

variable {p : Params} {r : Regs} {ethSrc : Mac} {src : Ip} {m : Bytes}

theorem icmpEnd_of_error {c : StatusCode} (h : icmpEntry m = .error c) : icmpEnd p r ethSrc src m = .drop c := by
  simp only [icmpEnd, h]

theorem icmpEnd_of_ok {type code : Byte} {rest : Bytes} (h : icmpEntry m = .ok ⟨type, code, rest⟩) :
    icmpEnd p r ethSrc src m = if type = 8 then icmpEchoEnd p r ethSrc src code rest else .drop .icmpNotEcho := by
  simp only [icmpEnd, h]
  rfl

/-- R117 and R118 behind R115 and R116, on the bytes of the message itself. -/
theorem icmpEnd_of_checks (h : 8 ≤ m.length) (hsum : csum [m.take 2, [0, 0], m.drop 4] = be16 m 2) :
    icmpEnd p r ethSrc src m =
      if byteAt m 0 = 8 then icmpEchoEnd p r ethSrc src (byteAt m 1) (m.drop 4) else .drop .icmpNotEcho :=
  icmpEnd_of_ok (icmpEntry_ok h hsum)

theorem icmpEnd_notEcho (h : 8 ≤ m.length) (hsum : csum [m.take 2, [0, 0], m.drop 4] = be16 m 2) (htype : byteAt m 0 ≠ 8) :
    icmpEnd p r ethSrc src m = .drop .icmpNotEcho := by rw [icmpEnd_of_checks h hsum, if_neg htype]

theorem icmpEnd_echo (h : 8 ≤ m.length) (hsum : csum [m.take 2, [0, 0], m.drop 4] = be16 m 2) (htype : byteAt m 0 = 8) :
    icmpEnd p r ethSrc src m = icmpEchoEnd p r ethSrc src (byteAt m 1) (m.drop 4) := by
  rw [icmpEnd_of_checks h hsum, if_pos htype]

end Dispatch

/-! ### The echo row (R117) and its reply (R120) -/

section Echo

variable {p : Params} {r : Regs} {ethSrc : Mac} {src : Ip} {code : Byte} {rest : Bytes}

theorem icmpEchoEnd_noAddr (h : r.myIp = 0) : icmpEchoEnd p r ethSrc src code rest = .drop .icmpNoAddr := if_pos h

theorem icmpEchoEnd_answered (h : r.myIp ≠ 0) :
    icmpEchoEnd p r ethSrc src code rest =
      .finish r (some (ethFrame r ethSrc (ipDatagram p 1 r.myIp src (echoReply code rest)))) := if_neg h

end Echo

/-- The header of a frame that carries an IPv4 datagram, byte for byte (R61, R112). -/
theorem ethFrame_eq (r : Regs) (dst : Mac) (payload : Bytes) :
    ethFrame r dst payload = bytes48 dst ++ bytes48 r.myMac ++ [0x08, 0x00] ++ payload := by
  have htype : bytes16 Config.etherTypeIpv4 = [0x08, 0x00] := by decide
  rw [ethFrame, ethHeader, htype]

/-- A message is its type and code, the checksum of R84 over the zeroed message, and the bytes from offset 4 on. -/
theorem icmpMessage_eq (type code : Byte) (rest : Bytes) :
    icmpMessage type code rest = [type, code] ++ bytes16 (csum [[type, code, 0x00, 0x00] ++ rest]) ++ rest := rfl

/-! ### The ICMP instructions -/

theorem exec_icmpEcho (ethSrc : Mac) (src : Ip) (code : Byte) (rest : Bytes) (s : State) :
    exec (.icmpEcho ethSrc src code rest) s =
      .next (s.complete .rx (icmpEchoEnd s.params s.regs ethSrc src code rest)) := rfl

theorem exec_ipIcmp_of_drop {ethSrc : Mac} {src dst : Ip} {m : Bytes} {s : State} {c : StatusCode}
    (hdrop : icmpEnd s.params s.regs ethSrc src m = .drop c) (hc : c ≠ .ok) :
    exec (.ipIcmp ethSrc src dst m) s = .next (s.rxDropped c.code) := by
  rw [exec_ipIcmp, hdrop, State.complete_rx_drop s hc]

/-- Settles O30: a failing check is the entry's error, and a message that passes ends as the row of its type does on the code and
the bytes from offset 4 on. -/
theorem ipIcmpChecksThenRunsTheRowOfTheType : Obligations.IpIcmpChecksThenRunsTheRowOfTheType := by
  intro ethSrc src dst m s
  refine ⟨fun hshort => ?short, fun hlen hsum => ?badChecksum, fun hlen hsum htype => ?notEcho, fun hlen hsum htype => ?echo⟩
  case short => exact exec_ipIcmp_of_drop (icmpEnd_of_error (icmpEntry_short hshort)) (by decide)
  case badChecksum => exact exec_ipIcmp_of_drop (icmpEnd_of_error (icmpEntry_badChecksum hlen hsum)) (by decide)
  case notEcho => exact exec_ipIcmp_of_drop (icmpEnd_notEcho hlen hsum htype) (by decide)
  case echo => exact ⟨_, by rw [exec_ipIcmp, icmpEnd_echo hlen hsum htype], exec_icmpEcho ..⟩

/-- Settles O29, by R117's two cases; the frame's bytes are R112's and the message's R120's. -/
theorem icmpEchoIsAnswered : Obligations.IcmpEchoIsAnswered := by
  intro ethSrc src code rest s
  refine ⟨fun haddr hmac => ?answered, fun hnone => ?dropped⟩
  case answered =>
    rw [exec_icmpEcho, icmpEchoEnd_answered haddr, State.complete_rx_sent hmac, ethFrame_eq, echoReply, icmpMessage_eq]
  case dropped =>
    rw [exec_icmpEcho, icmpEchoEnd_noAddr hnone, State.complete_rx_drop s (by decide)]
    rfl

end Sys2Proof.Machine

/-! The UDP and TCP levels of the RX operation: the datagram and header checks in their order, the row of the ports, and the latch
of the parsed TCP header (45_udp_tcp.md R125 to R131). -/

namespace Sys2Proof.Machine

/-! ### The UDP entry checks (R125 to R127), in their order -/

/-- R125 and R126 pass: the IPv4 payload holds the whole datagram that its UDP length field declares, of `ulen` bytes. -/
structure HoldsUdpDatagram (d : Bytes) (ulen : Nat) : Prop where
  declared : ulen = (be16 d 4).toNat
  coversHeader : 8 ≤ ulen
  fits : ulen ≤ d.length

section UdpEntry

variable {src dst : Ip} {d : Bytes} {ulen : Nat}

/-- R82 on the datagram, with its length and the bytes it sums read from the IPv4 payload. -/
theorem udpVerifies_take_iff (h : HoldsUdpDatagram d ulen) :
    udpVerifies src dst (d.take ulen) = true ↔
      be16 d 6 = 0 ∨ csum [pseudo src dst 17 (be16 d 4), d.take 6, [0, 0], slice d 8 ulen] = be16 d 6 ∨
        (csum [pseudo src dst 17 (be16 d 4), d.take 6, [0, 0], slice d 8 ulen] = 0 ∧ be16 d 6 = 0xFFFF) := by
  obtain ⟨hdeclared, hmin, hfits⟩ := h
  have hlen : BitVec.ofNat 16 (d.take ulen).length = be16 d 4 := by
    rw [List.length_take_of_le hfits, hdeclared, BitVec.ofNat_toNat, BitVec.setWidth_eq]
  have hhead : (d.take ulen).take 6 = d.take 6 := by rw [List.take_take, min_eq_left (by omega)]
  have hfield : be16 (d.take ulen) 6 = be16 d 6 := be16_take (by omega)
  rw [udpVerifies_iff src dst _ _ rfl, hlen, hhead, hfield, slice]

theorem udpEntry_short (h : d.length < 8) : udpEntry src dst d = .error .udpShort := if_pos h

theorem udpEntry_badLength (h : 8 ≤ d.length) (hulen : ulen = (be16 d 4).toNat) (hbad : ulen < 8 ∨ d.length < ulen) :
    udpEntry src dst d = .error .udpBadLength := by
  simp only [udpEntry, if_neg (Nat.not_lt.mpr h), ← hulen, if_pos hbad]

/-- R127 behind R125 and R126. -/
theorem udpEntry_of_datagram (h : HoldsUdpDatagram d ulen) :
    udpEntry src dst d =
      if udpVerifies src dst (d.take ulen) = true then .ok ⟨be16 d 0, be16 d 2, slice d 8 ulen⟩
      else .error .udpBadChecksum := by
  obtain ⟨hdeclared, hmin, hfits⟩ := h
  have hlong : ¬ d.length < 8 := by omega
  have hlen : ¬ (ulen < 8 ∨ d.length < ulen) := by omega
  simp only [udpEntry, if_neg hlong, ← hdeclared, if_neg hlen, Bool.not_eq_true', ← Bool.not_eq_true, ite_not]

theorem udpEntry_badChecksum (h : HoldsUdpDatagram d ulen) (hsum : ¬ udpVerifies src dst (d.take ulen) = true) :
    udpEntry src dst d = .error .udpBadChecksum := by rw [udpEntry_of_datagram h, if_neg hsum]

theorem udpEntry_ok (h : HoldsUdpDatagram d ulen) (hsum : udpVerifies src dst (d.take ulen) = true) :
    udpEntry src dst d = .ok ⟨be16 d 0, be16 d 2, slice d 8 ulen⟩ := by rw [udpEntry_of_datagram h, if_pos hsum]

end UdpEntry

/-! ### The dispatch on the ports (R128, R129) -/

section UdpDispatch

variable {p : Params} {r : Regs} {src dst : Ip} {d : Bytes} {sport dport : Half} {data : Bytes}

theorem udpEnd_of_error {c : StatusCode} (h : udpEntry src dst d = .error c) : udpEnd p r src dst d = .drop c := by
  simp only [udpEnd, h]

theorem udpEnd_of_ok (h : udpEntry src dst d = .ok ⟨sport, dport, data⟩) :
    udpEnd p r src dst d = if sport = 67 ∧ dport = 68 then dhcpEnd p r data else .drop .udpNoListener := by
  simp only [udpEnd, h]
  rfl

theorem udpEnd_dhcp (h : udpEntry src dst d = .ok ⟨sport, dport, data⟩) (hsport : sport = 67) (hdport : dport = 68) :
    udpEnd p r src dst d = dhcpEnd p r data := by rw [udpEnd_of_ok h, if_pos ⟨hsport, hdport⟩]

theorem udpEnd_noListener (h : udpEntry src dst d = .ok ⟨sport, dport, data⟩) (hports : sport ≠ 67 ∨ dport ≠ 68) :
    udpEnd p r src dst d = .drop .udpNoListener := by rw [udpEnd_of_ok h, if_neg (not_and_or.mpr hports)]

end UdpDispatch

/-! ### The UDP instructions -/

theorem exec_udpDhcp (msg : Bytes) (s : State) :
    exec (.udpDhcp msg) s = .next (s.complete .rx (dhcpEnd s.params s.regs msg)) := rfl

theorem exec_ipUdp_of_drop {src dst : Ip} {d : Bytes} {s : State} {c : StatusCode}
    (hdrop : udpEnd s.params s.regs src dst d = .drop c) (hc : c ≠ .ok) :
    exec (.ipUdp src dst d) s = .next (s.rxDropped c.code) := by
  rw [exec_ipUdp, hdrop, State.complete_rx_drop s hc]

/-- Settles O31: a failing check is the entry's error, where R127 fails exactly when none of R82's three cases holds, and a datagram
that passes ends as the row of its ports does on the bytes up to the UDP length. -/
theorem ipUdpChecksThenRunsTheRowOfThePorts : Obligations.IpUdpChecksThenRunsTheRowOfThePorts := by
  intro src dst d s ulen hulen
  refine ⟨fun hshort => ?short, fun hlen hbad => ?badLength, fun hmin hfits c hc => ?datagram⟩
  case short => exact exec_ipUdp_of_drop (udpEnd_of_error (udpEntry_short hshort)) (by decide)
  case badLength => exact exec_ipUdp_of_drop (udpEnd_of_error (udpEntry_badLength hlen hulen hbad)) (by decide)
  case datagram =>
    have datagram : HoldsUdpDatagram d ulen := ⟨hulen, hmin, hfits⟩
    have hverifies := udpVerifies_take_iff (src := src) (dst := dst) datagram
    rw [← hc] at hverifies
    refine ⟨fun hsent hdiffers hnotZero => ?badChecksum, fun hpasses => ?passes⟩
    case badChecksum =>
      have hfails : ¬ udpVerifies src dst (d.take ulen) = true :=
        fun hsum => (hverifies.mp hsum).elim hsent (fun hrest => hrest.elim hdiffers hnotZero)
      exact exec_ipUdp_of_drop (udpEnd_of_error (udpEntry_badChecksum datagram hfails)) (by decide)
    case passes =>
      have hentry := udpEntry_ok datagram (hverifies.mpr hpasses)
      refine ⟨fun hsport hdport => ?dhcp, fun hports => ?noListener⟩
      case dhcp => exact ⟨_, by rw [exec_ipUdp, udpEnd_dhcp hentry hsport hdport], exec_udpDhcp ..⟩
      case noListener => exact exec_ipUdp_of_drop (udpEnd_noListener hentry hports) (by decide)

/-! ### The TCP header check (R130) -/

section TcpEntry

variable {p : Bytes} {doff : Nat}

/-- R130's two tests as one, with the data offset read as the high nibble of byte 12. -/
theorem tcpEntry_eq (hdoff : doff = (byteAt p 12).toNat / 16) :
    tcpEntry p =
      if p.length < 20 ∨ doff < 5 ∨ p.length < doff * 4 then .error .tcpBadHeader
      else .ok ⟨be16 p 0, be16 p 2, be32 p 4, be32 p 8, be16 p 12⟩ := by
  simp only [tcpEntry, toNat_highNibble, ← hdoff, ite_or]

theorem tcpEntry_badHeader (hdoff : doff = (byteAt p 12).toNat / 16)
    (hbad : p.length < 20 ∨ doff < 5 ∨ p.length < doff * 4) : tcpEntry p = .error .tcpBadHeader := by
  rw [tcpEntry_eq hdoff, if_pos hbad]

theorem tcpEntry_ok (hdoff : doff = (byteAt p 12).toNat / 16) (hlen : 20 ≤ p.length) (hmin : 5 ≤ doff)
    (hfits : doff * 4 ≤ p.length) : tcpEntry p = .ok ⟨be16 p 0, be16 p 2, be32 p 4, be32 p 8, be16 p 12⟩ := by
  have hheader : ¬ (p.length < 20 ∨ doff < 5 ∨ p.length < doff * 4) := by omega
  rw [tcpEntry_eq hdoff, if_neg hheader]

end TcpEntry

/-! ### The TCP instructions, and the latch of R131 -/

section TcpDispatch

variable {r : Regs} {p : Bytes}

theorem tcpEnd_of_error {c : StatusCode} (h : tcpEntry p = .error c) : tcpEnd r p = .drop c := by simp only [tcpEnd, h]

theorem tcpEnd_of_ok {header : TcpHeader} (h : tcpEntry p = .ok header) : tcpEnd r p = tcpInspectEnd r header := by
  simp only [tcpEnd, h]

end TcpDispatch

/-- TCP_INSPECT completes without a frame, on a copy of the registers that differs in the latch and the count alone. -/
theorem State.complete_tcpInspect (s : State) (h : TcpHeader) :
    s.complete .rx (tcpInspectEnd s.regs h) =
      s.rxQuiet
        { s.regs with
          tcpSport := h.sport, tcpDport := h.dport, tcpSeq := h.seq, tcpAck := h.ack, tcpOffFlags := h.offFlags
          tcpCount := s.regs.tcpCount + 1 } := by
  rw [tcpInspectEnd, State.complete_rx_quiet, inc]

theorem exec_tcpInspect (h : TcpHeader) (s : State) :
    exec (.tcpInspect h) s = .next (s.complete .rx (tcpInspectEnd s.regs h)) := rfl

/-- Settles O32: a segment that R130 refuses is dropped, and one that passes ends as TCP_INSPECT does on its parsed header. -/
theorem ipTcpChecksThenLatches : Obligations.IpTcpChecksThenLatches := by
  refine ⟨fun p s doff hdoff => ⟨fun hbad => ?badHeader, fun hlen hmin hfits => ?latched⟩, fun h s => ?inspect⟩
  case badHeader =>
    rw [exec_ipTcp, tcpEnd_of_error (tcpEntry_badHeader hdoff hbad), State.complete_rx_drop s (by decide)]
    rfl
  case latched => rw [exec_ipTcp, tcpEnd_of_ok (tcpEntry_ok hdoff hlen hmin hfits), State.complete_tcpInspect]
  case inspect => rw [exec_tcpInspect, State.complete_tcpInspect]

end Sys2Proof.Machine

/-! The options of a DHCP message: the bytes that are examined, what recording one option does, and the loop over them
(46_dhcp_rx.md R145, R146). -/

namespace Sys2Proof.Machine

/-! ### The bytes that are examined -/

section Window

variable {f : Bytes} {a b j : Nat}

theorem length_slice (f : Bytes) (a b : Nat) : (slice f a b).length = min f.length b - a := by
  rw [slice, List.length_drop, List.length_take, min_comm]

theorem byteAt_slice (h : a + j < b) : byteAt (slice f a b) j = byteAt f (a + j) := by
  calc byteAt (slice f a b) j
      = byteAt (f.take b) (a + j) := by simp [byteAt, slice]
    _ = byteAt f (a + j) := byteAt_take h

end Window

/-! ### Recording one option (R146): the equation of each code -/

section Record

variable (o : ParsedOpts) (v : Bytes)

theorem recordOption_msgType :
    recordOption o 53 v = if o.msgType = none ∧ v.length = 1 then { o with msgType := some (byteAt v 0) } else o := rfl

/-- Behind option 53 only the four options of length 4 are left. -/
theorem recordOption_of_ne_msgType {code : Byte} (hcode : code ≠ 53) :
    recordOption o code v =
      if v.length ≠ 4 then o
      else if code = 51 then if o.opts.lease = none then { o with opts.lease := some (be32 v 0) } else o
      else if code = 54 then if o.opts.server = none then { o with opts.server := some (be32 v 0) } else o
      else if code = 58 then if o.opts.t1 = none then { o with opts.t1 := some (be32 v 0) } else o
      else if code = 59 then if o.opts.t2 = none then { o with opts.t2 := some (be32 v 0) } else o
      else o := if_neg hcode

/-- The two tests of a 4-byte option as one: either failing leaves the map. -/
theorem ite_length_ne_four {c : Prop} [Decidable c] (new : ParsedOpts) :
    (if v.length ≠ 4 then o else if c then new else o) = if c ∧ v.length = 4 then new else o := by
  by_cases hlen : v.length = 4
  · rw [if_neg (not_not.mpr hlen)]
    simp only [hlen, and_true]
  · rw [if_pos hlen, if_neg fun h => hlen h.2]

theorem recordOption_lease :
    recordOption o 51 v = if o.opts.lease = none ∧ v.length = 4 then { o with opts.lease := some (be32 v 0) } else o := by
  rw [recordOption_of_ne_msgType o v (by decide), ← ite_length_ne_four]
  rfl

theorem recordOption_server :
    recordOption o 54 v = if o.opts.server = none ∧ v.length = 4 then { o with opts.server := some (be32 v 0) } else o := by
  rw [recordOption_of_ne_msgType o v (by decide), ← ite_length_ne_four]
  rfl

theorem recordOption_t1 :
    recordOption o 58 v = if o.opts.t1 = none ∧ v.length = 4 then { o with opts.t1 := some (be32 v 0) } else o := by
  rw [recordOption_of_ne_msgType o v (by decide), ← ite_length_ne_four]
  rfl

theorem recordOption_t2 :
    recordOption o 59 v = if o.opts.t2 = none ∧ v.length = 4 then { o with opts.t2 := some (be32 v 0) } else o := by
  rw [recordOption_of_ne_msgType o v (by decide), ← ite_length_ne_four]
  rfl

theorem recordOption_other {code : Byte} (h53 : code ≠ 53) (h51 : code ≠ 51) (h54 : code ≠ 54) (h58 : code ≠ 58)
    (h59 : code ≠ 59) : recordOption o code v = o := by
  rw [recordOption_of_ne_msgType o v h53, if_neg h51, if_neg h54, if_neg h58, if_neg h59, ite_self]

end Record

/-! ### A recorded option stays recorded -/

/-- Every option that `o` has recorded stands in `o'` with the same value. -/
structure ParsedOpts.KeptBy (o o' : ParsedOpts) : Prop where
  msgType : ∀ v, o.msgType = some v → o'.msgType = some v
  lease : ∀ v, o.opts.lease = some v → o'.opts.lease = some v
  server : ∀ v, o.opts.server = some v → o'.opts.server = some v
  t1 : ∀ v, o.opts.t1 = some v → o'.opts.t1 = some v
  t2 : ∀ v, o.opts.t2 = some v → o'.opts.t2 = some v

@[refl] theorem ParsedOpts.KeptBy.refl (o : ParsedOpts) : o.KeptBy o :=
  ⟨fun _ => id, fun _ => id, fun _ => id, fun _ => id, fun _ => id⟩

theorem ParsedOpts.KeptBy.trans {o o' o'' : ParsedOpts} (h : o.KeptBy o') (h' : o'.KeptBy o'') : o.KeptBy o'' where
  msgType v := h'.msgType v ∘ h.msgType v
  lease v := h'.lease v ∘ h.lease v
  server v := h'.server v ∘ h.server v
  t1 v := h'.t1 v ∘ h.t1 v
  t2 v := h'.t2 v ∘ h.t2 v

theorem ParsedOpts.keptBy_ite {c : Prop} [Decidable c] {o new : ParsedOpts} (h : c → o.KeptBy new) :
    o.KeptBy (if c then new else o) := by
  split
  case isTrue hc => exact h hc
  case isFalse => rfl

/-- Recording writes a field only where it is still empty, so nothing is overwritten. -/
theorem ParsedOpts.keptBy_recordOption (o : ParsedOpts) (code : Byte) (v : Bytes) : o.KeptBy (recordOption o code v) := by
  by_cases h53 : code = 53
  · rw [h53, recordOption_msgType]
    exact keptBy_ite fun ⟨hnew, _⟩ => by constructor <;> simp [hnew]
  by_cases h51 : code = 51
  · rw [h51, recordOption_lease]
    exact keptBy_ite fun ⟨hnew, _⟩ => by constructor <;> simp [hnew]
  by_cases h54 : code = 54
  · rw [h54, recordOption_server]
    exact keptBy_ite fun ⟨hnew, _⟩ => by constructor <;> simp [hnew]
  by_cases h58 : code = 58
  · rw [h58, recordOption_t1]
    exact keptBy_ite fun ⟨hnew, _⟩ => by constructor <;> simp [hnew]
  by_cases h59 : code = 59
  · rw [h59, recordOption_t2]
    exact keptBy_ite fun ⟨hnew, _⟩ => by constructor <;> simp [hnew]
  rw [recordOption_other o v h53 h51 h54 h58 h59]

/-! ### The loop (R145): the equation of each turn -/

section Loop

variable (fuel : Nat) {code len : Byte} {v : Bytes} (tail : Bytes) (o : ParsedOpts)

theorem parseOptions_nil : parseOptions fuel [] o = o := by cases fuel <;> rfl

theorem parseOptions_end : parseOptions (fuel + 1) (255 :: tail) o = o := rfl

theorem parseOptions_pad : parseOptions (fuel + 1) (0 :: tail) o = parseOptions fuel tail o := rfl

theorem parseOptions_noLength (hpad : code ≠ 0) (hend : code ≠ 255) : parseOptions (fuel + 1) [code] o = o := by
  simp only [parseOptions, if_neg hend, if_neg hpad]

theorem parseOptions_cutOff (hpad : code ≠ 0) (hend : code ≠ 255) (hcut : v.length < len.toNat) :
    parseOptions (fuel + 1) (code :: len :: v) o = o := by
  simp only [parseOptions, if_neg hend, if_neg hpad, if_pos hcut]

theorem parseOptions_option (hpad : code ≠ 0) (hend : code ≠ 255) (hlen : v.length = len.toNat) :
    parseOptions (fuel + 1) (code :: len :: (v ++ tail)) o = parseOptions fuel tail (recordOption o code v) := by
  have hfits : ¬ (v ++ tail).length < len.toNat := by rw [List.length_append]; omega
  simp only [parseOptions, if_neg hend, if_neg hpad, if_neg hfits, List.take_left' hlen, List.drop_left' hlen]

/-- What one turn does, whatever the fuel behind it: it ends the parse, or it goes on behind the bytes it consumed with a map that
keeps what was recorded. -/
theorem parseOptions_turn (code : Byte) (rest : Bytes) (o : ParsedOpts) :
    (∀ fuel, parseOptions (fuel + 1) (code :: rest) o = o) ∨
    ∃ tail o', tail.length ≤ rest.length ∧ o.KeptBy o' ∧
      ∀ fuel, parseOptions (fuel + 1) (code :: rest) o = parseOptions fuel tail o' := by
  by_cases hend : code = 255
  · exact .inl fun fuel => hend ▸ parseOptions_end fuel rest o
  by_cases hpad : code = 0
  · exact .inr ⟨rest, o, le_rfl, .refl o, fun fuel => hpad ▸ parseOptions_pad fuel rest o⟩
  match rest with
  | [] => exact .inl fun fuel => parseOptions_noLength fuel o hpad hend
  | len :: body =>
    by_cases hcut : body.length < len.toNat
    · exact .inl fun fuel => parseOptions_cutOff fuel o hpad hend hcut
    · have hturn (fuel : Nat) := parseOptions_option fuel (body.drop len.toNat) o hpad hend
        (List.length_take_of_le (Nat.not_lt.mp hcut))
      rw [List.take_append_drop] at hturn
      exact .inr ⟨_, _, by simp; omega, o.keptBy_recordOption code _, hturn⟩

end Loop

theorem keptBy_parseOptions (fuel : Nat) (bs : Bytes) (o : ParsedOpts) : o.KeptBy (parseOptions fuel bs o) := by
  induction fuel generalizing bs o with
  | zero => exact .refl o
  | succ fuel ih =>
    match bs with
    | [] => rw [parseOptions_nil]
    | code :: rest =>
      obtain hends | ⟨tail, o', -, hkept, hturn⟩ := parseOptions_turn code rest o
      · rw [hends]
      · rw [hturn]
        exact hkept.trans (ih tail o')

/-- Each turn consumes a byte, so any two bounds that cover the bytes give the same parse. -/
theorem parseOptions_fuel_irrelevant {f g : Nat} {bs : Bytes} (o : ParsedOpts) (hf : bs.length ≤ f) (hg : bs.length ≤ g) :
    parseOptions f bs o = parseOptions g bs o := by
  induction f generalizing g bs o with
  | zero => rw [List.length_eq_zero_iff.mp (Nat.le_zero.mp hf), parseOptions_nil, parseOptions_nil]
  | succ f ih =>
    match bs, g with
    | [], _ => rw [parseOptions_nil, parseOptions_nil]
    | code :: rest, g + 1 =>
      rw [List.length_cons] at hf hg
      obtain hends | ⟨tail, o', hshorter, -, hturn⟩ := parseOptions_turn code rest o
      · rw [hends, hends]
      · rw [hturn, hturn]
        exact ih o' (by omega) (by omega)

/-- Settles O39: the window is a slice, recording and the loop go by their equations, no turn overwrites what is recorded, and each
turn consumes a byte of the bound. -/
theorem optionParsingFollowsTheLoop : Obligations.OptionParsingFollowsTheLoop := by
  refine ⟨fun p d => ⟨length_slice .., fun j hj => byteAt_slice (by omega)⟩, fun o v => ?record, rfl, parseOptions_nil 0,
    fun fuel bs o => ?kept, fun fuel bs o hfuel => parseOptions_fuel_irrelevant o hfuel le_rfl,
    fun n tail o _ => ⟨parseOptions_end n tail o, parseOptions_pad n tail o⟩,
    fun code len v tail o hpad hend hlen => ?option,
    fun code len v o hpad hend hcut => ⟨parseOptions_cutOff _ o hpad hend hcut, parseOptions_noLength 0 o hpad hend⟩⟩
  case record =>
    rw [recordOption_msgType, recordOption_lease, recordOption_server, recordOption_t1, recordOption_t2]
    exact ⟨fun hnew hlen => if_pos ⟨hnew, hlen⟩, fun hnot => if_neg (not_and_or.mpr hnot),
      fun hnew hlen => if_pos ⟨hnew, hlen⟩, fun hnot => if_neg (not_and_or.mpr hnot),
      fun hnew hlen => if_pos ⟨hnew, hlen⟩, fun hnot => if_neg (not_and_or.mpr hnot),
      fun hnew hlen => if_pos ⟨hnew, hlen⟩, fun hnot => if_neg (not_and_or.mpr hnot),
      fun hnew hlen => if_pos ⟨hnew, hlen⟩, fun hnot => if_neg (not_and_or.mpr hnot),
      fun _ h53 h51 h54 h58 h59 => recordOption_other o v h53 h51 h54 h58 h59⟩
  case kept =>
    obtain ⟨hmsgType, hlease, hserver, ht1, ht2⟩ := keptBy_parseOptions fuel bs o
    exact ⟨hmsgType, hlease, hserver, ht1, ht2⟩
  case option =>
    calc parseOptions (code :: len :: v ++ tail).length (code :: len :: v ++ tail) o
        = parseOptions (len :: v ++ tail).length tail (recordOption o code v) :=
          parseOptions_option _ tail o hpad hend hlen
      _ = parseOptions tail.length tail (recordOption o code v) :=
          parseOptions_fuel_irrelevant _ (by simp; omega) le_rfl

end Sys2Proof.Machine

/-! The DHCP level of the RX operation: the acceptance checks in their order, the row of each message type and `DSTATE`, and what
the OFFER and NAK rows leave (46_dhcp_rx.md R140 to R149, R153 to R155). -/

namespace Sys2Proof.Machine

/-! ### The acceptance checks (R140 to R144, R147), in their order -/

/-- R140 to R144 pass: the client is on, and the message is a reply with the cookie and the current `XID`. -/
structure IsDhcpReply (r : Regs) (d : Bytes) : Prop where
  enabled : r.dhcpEn = true
  long : 240 ≤ d.length
  op : byteAt d 0 = 2
  cookie : be32 d 236 = 0x63825363
  xid : be32 d 4 = r.xid

section DhcpEntry

variable {p : Params} {r : Regs} {d : Bytes} {o : ParsedOpts}

theorem dhcpEntry_disabled (h : r.dhcpEn = false) : dhcpEntry p r d = .error .dhcpDisabled := if_pos (by rw [h]; rfl)

/-- R141 to R147 while the client is on, with the constants of the configuration written out. -/
theorem dhcpEntry_of_enabled (h : r.dhcpEn = true)
    (ho : o = parseOptions (optionBytes p d).length (optionBytes p d) .empty) :
    dhcpEntry p r d =
      if d.length < 240 then .error .dhcpShort
      else if byteAt d 0 ≠ 2 then .error .dhcpBadOp
      else if be32 d 236 ≠ 0x63825363 then .error .dhcpBadCookie
      else if be32 d 4 ≠ r.xid then .error .dhcpXidMismatch
      else o.msgType.elim (.error .dhcpNoMsgtype) fun mt => .ok ⟨be32 d 16, mt, o.opts⟩ := by
  rw [dhcpEntry, h, if_neg (by decide)]
  simp only [← ho]
  cases o.msgType <;> rfl

theorem dhcpEntry_short (henabled : r.dhcpEn = true) (h : d.length < 240) : dhcpEntry p r d = .error .dhcpShort := by
  rw [dhcpEntry_of_enabled henabled rfl, if_pos h]

theorem dhcpEntry_badOp (henabled : r.dhcpEn = true) (hlong : 240 ≤ d.length) (hop : byteAt d 0 ≠ 2) :
    dhcpEntry p r d = .error .dhcpBadOp := by
  rw [dhcpEntry_of_enabled henabled rfl, if_neg (Nat.not_lt.mpr hlong), if_pos hop]

theorem dhcpEntry_badCookie (henabled : r.dhcpEn = true) (hlong : 240 ≤ d.length) (hop : byteAt d 0 = 2)
    (hcookie : be32 d 236 ≠ 0x63825363) : dhcpEntry p r d = .error .dhcpBadCookie := by
  rw [dhcpEntry_of_enabled henabled rfl, if_neg (Nat.not_lt.mpr hlong), if_neg (not_not.mpr hop), if_pos hcookie]

theorem dhcpEntry_xidMismatch (henabled : r.dhcpEn = true) (hlong : 240 ≤ d.length) (hop : byteAt d 0 = 2)
    (hcookie : be32 d 236 = 0x63825363) (hxid : be32 d 4 ≠ r.xid) : dhcpEntry p r d = .error .dhcpXidMismatch := by
  rw [dhcpEntry_of_enabled henabled rfl, if_neg (Nat.not_lt.mpr hlong), if_neg (not_not.mpr hop),
    if_neg (not_not.mpr hcookie), if_pos hxid]

/-- R147 behind R140 to R144. -/
theorem dhcpEntry_of_reply (h : IsDhcpReply r d) (ho : o = parseOptions (optionBytes p d).length (optionBytes p d) .empty) :
    dhcpEntry p r d = o.msgType.elim (.error .dhcpNoMsgtype) fun mt => .ok ⟨be32 d 16, mt, o.opts⟩ := by
  rw [dhcpEntry_of_enabled h.enabled ho, if_neg (Nat.not_lt.mpr h.long), if_neg (not_not.mpr h.op),
    if_neg (not_not.mpr h.cookie), if_neg (not_not.mpr h.xid)]

theorem dhcpEntry_noMsgtype (h : IsDhcpReply r d) (ho : o = parseOptions (optionBytes p d).length (optionBytes p d) .empty)
    (hnone : o.msgType = none) : dhcpEntry p r d = .error .dhcpNoMsgtype := by
  rw [dhcpEntry_of_reply h ho, hnone, Option.elim_none]

theorem dhcpEntry_ok (h : IsDhcpReply r d) (ho : o = parseOptions (optionBytes p d).length (optionBytes p d) .empty) {mt : Byte}
    (hmt : o.msgType = some mt) : dhcpEntry p r d = .ok ⟨be32 d 16, mt, o.opts⟩ := by
  rw [dhcpEntry_of_reply h ho, hmt, Option.elim_some]

end DhcpEntry

/-! ### The dispatch on message type and `DSTATE` (R148, R154) -/

/-- The rows of R148's table other than SELECTING: the states that take no message, that bind a lease, and that extend one. -/
theorem DState.cases_of_ne_selecting {d : DState} (h : d ≠ .selecting) :
    (d = .init ∨ d = .bound ∨ d = .initReboot) ∨ (d = .requesting ∨ d = .rebooting) ∨
      (d = .renewing ∨ d = .rebinding) := by
  cases d <;> simp_all

section DhcpDispatch

variable {p : Params} {r : Regs} {d : Bytes} {m : DhcpFields}

theorem dhcpEnd_of_error {c : StatusCode} (h : dhcpEntry p r d = .error c) : dhcpEnd p r d = .drop c := by
  simp only [dhcpEnd, h]

theorem dhcpEnd_of_ok (h : dhcpEntry p r d = .ok m) : dhcpEnd p r d = dhcpDispatchEnd p r m := by
  simp only [dhcpEnd, h]

theorem dhcpDispatchEnd_offer (hst : r.dstate = .selecting) (hmt : m.msgType = 2) :
    dhcpDispatchEnd p r m = dhcpOfferEnd p r m.yiaddr m.opts := by
  simp only [dhcpDispatchEnd, hst, if_pos hmt]

theorem dhcpDispatchEnd_of_idle (hst : r.dstate = .init ∨ r.dstate = .bound ∨ r.dstate = .initReboot) :
    dhcpDispatchEnd p r m = .drop .dhcpUnexpected := by
  obtain hst | hst | hst := hst <;> simp only [dhcpDispatchEnd, hst, dhcpOtherEnd]

/-- The two states that bind a lease share one row of R148's table. -/
theorem dhcpDispatchEnd_of_binding (hst : r.dstate = .requesting ∨ r.dstate = .rebooting) :
    dhcpDispatchEnd p r m =
      if m.msgType = 5 then dhcpAckBindEnd r m.yiaddr m.opts
      else if m.msgType = 6 then dhcpNakEnd r else dhcpOtherEnd := by
  obtain hst | hst := hst <;> simp only [dhcpDispatchEnd, hst]

/-- The two states that extend a lease share one row of R148's table. -/
theorem dhcpDispatchEnd_of_extending (hst : r.dstate = .renewing ∨ r.dstate = .rebinding) :
    dhcpDispatchEnd p r m =
      if m.msgType = 5 then dhcpAckExtendEnd r m.yiaddr m.opts
      else if m.msgType = 6 then dhcpNakEnd r else dhcpOtherEnd := by
  obtain hst | hst := hst <;> simp only [dhcpDispatchEnd, hst]

theorem dhcpDispatchEnd_ackBind (hst : r.dstate = .requesting ∨ r.dstate = .rebooting) (hmt : m.msgType = 5) :
    dhcpDispatchEnd p r m = dhcpAckBindEnd r m.yiaddr m.opts := by
  rw [dhcpDispatchEnd_of_binding hst, if_pos hmt]

theorem dhcpDispatchEnd_ackExtend (hst : r.dstate = .renewing ∨ r.dstate = .rebinding) (hmt : m.msgType = 5) :
    dhcpDispatchEnd p r m = dhcpAckExtendEnd r m.yiaddr m.opts := by
  rw [dhcpDispatchEnd_of_extending hst, if_pos hmt]

theorem dhcpDispatchEnd_nak
    (hst : r.dstate = .requesting ∨ r.dstate = .rebooting ∨ r.dstate = .renewing ∨ r.dstate = .rebinding)
    (hmt : m.msgType = 6) : dhcpDispatchEnd p r m = dhcpNakEnd r := by
  have hnack : m.msgType ≠ 5 := by rw [hmt]; decide
  obtain hbinding | hextending := or_assoc.mpr hst
  · rw [dhcpDispatchEnd_of_binding hbinding, if_neg hnack, if_pos hmt]
  · rw [dhcpDispatchEnd_of_extending hextending, if_neg hnack, if_pos hmt]

/-- R154: the states that take no message, and the types that a state does not take. -/
theorem dhcpDispatchEnd_other
    (h : r.dstate = .init ∨ r.dstate = .bound ∨ r.dstate = .initReboot ∨ (r.dstate = .selecting ∧ m.msgType ≠ 2) ∨
      (r.dstate ≠ .selecting ∧ m.msgType ≠ 5 ∧ m.msgType ≠ 6)) :
    dhcpDispatchEnd p r m = .drop .dhcpUnexpected := by
  obtain hst | hst | hst | ⟨hst, hmt⟩ | ⟨hst, hnack, hnnak⟩ := h
  · exact dhcpDispatchEnd_of_idle (.inl hst)
  · exact dhcpDispatchEnd_of_idle (.inr (.inl hst))
  · exact dhcpDispatchEnd_of_idle (.inr (.inr hst))
  · simp only [dhcpDispatchEnd, hst, if_neg hmt, dhcpOtherEnd]
  · obtain hidle | hbinding | hextending := DState.cases_of_ne_selecting hst
    · exact dhcpDispatchEnd_of_idle hidle
    · rw [dhcpDispatchEnd_of_binding hbinding, if_neg hnack, if_neg hnnak, dhcpOtherEnd]
    · rw [dhcpDispatchEnd_of_extending hextending, if_neg hnack, if_neg hnnak, dhcpOtherEnd]

end DhcpDispatch

/-! ### The OFFER row (R149) -/

section DhcpOffer

variable {p : Params} {r : Regs} {y : Ip} {o : DhcpOpts}

theorem dhcpOfferEnd_noServer (h : o.server = none) : dhcpOfferEnd p r y o = .drop .dhcpMissingOption := by
  simp only [dhcpOfferEnd, h]

theorem dhcpOfferEnd_of_server {server : Ip} (h : o.server = some server) :
    dhcpOfferEnd p r y o =
      if y = 0 then .drop .dhcpBadAddr
      else
        .finish { r with dhAddr := y, serverId := server, elapsed := 0, retry := 0, dstate := .requesting }
          (some (dhcpFrame p
            { r with dhAddr := y, serverId := server, elapsed := 0, retry := 0, dstate := .requesting } .reqSelect)) := by
  simp only [dhcpOfferEnd, h]

end DhcpOffer

/-! ### The DHCP instructions -/

section DhcpInstructions

variable (yiaddr : Ip) (opts : DhcpOpts) (s : State)

theorem exec_dhcpOffer :
    exec (.dhcpOffer yiaddr opts) s = .next (s.complete .rx (dhcpOfferEnd s.params s.regs yiaddr opts)) := rfl

theorem exec_dhcpAckBind :
    exec (.dhcpAckBind yiaddr opts) s = .next (s.complete .rx (dhcpAckBindEnd s.regs yiaddr opts)) := rfl

theorem exec_dhcpAckExtend :
    exec (.dhcpAckExtend yiaddr opts) s = .next (s.complete .rx (dhcpAckExtendEnd s.regs yiaddr opts)) := rfl

theorem exec_dhcpNak : exec .dhcpNak s = .next (s.complete .rx (dhcpNakEnd s.regs)) := rfl

/-- A NAK completes without a frame, on a copy of the registers that has abandoned the lease (R153). -/
theorem State.complete_dhcpNak : s.complete .rx (dhcpNakEnd s.regs) = s.rxQuiet s.regs.abandoned := by
  rw [dhcpNakEnd, State.complete_rx_quiet, Regs.abandonLease_eq]

theorem exec_udpDhcp_of_drop {d : Bytes} {s : State} {c : StatusCode} (hdrop : dhcpEnd s.params s.regs d = .drop c)
    (hc : c ≠ .ok) : exec (.udpDhcp d) s = .next (s.rxDropped c.code) := by
  rw [exec_udpDhcp, hdrop, State.complete_rx_drop s hc]

theorem exec_udpDhcp_of_error {d : Bytes} {s : State} {c : StatusCode} (h : dhcpEntry s.params s.regs d = .error c)
    (hc : c ≠ .ok) : exec (.udpDhcp d) s = .next (s.rxDropped c.code) :=
  exec_udpDhcp_of_drop (dhcpEnd_of_error h) hc

end DhcpInstructions

/-- Settles O34: a failing check is the entry's error, and a message that passes ends as the row does that R148's table gives its
type and `DSTATE`. -/
theorem udpDhcpChecksThenRunsTheRowOfTypeAndState : Obligations.UdpDhcpChecksThenRunsTheRowOfTypeAndState := by
  intro d s
  refine ⟨fun hoff => ?disabled, fun hon => ⟨fun hshort => ?short, fun hlong => ⟨fun hop => ?badOp,
    fun hop hcookie => ?badCookie, fun hop hcookie hxid => ?xidMismatch, fun hop hcookie hxid o ho => ?reply⟩⟩⟩
  case disabled => exact exec_udpDhcp_of_error (dhcpEntry_disabled hoff) (by decide)
  case short => exact exec_udpDhcp_of_error (dhcpEntry_short hon hshort) (by decide)
  case badOp => exact exec_udpDhcp_of_error (dhcpEntry_badOp hon hlong hop) (by decide)
  case badCookie => exact exec_udpDhcp_of_error (dhcpEntry_badCookie hon hlong hop hcookie) (by decide)
  case xidMismatch => exact exec_udpDhcp_of_error (dhcpEntry_xidMismatch hon hlong hop hcookie hxid) (by decide)
  case reply =>
    have reply : IsDhcpReply s.regs d := ⟨hon, hlong, hop, hcookie, hxid⟩
    refine ⟨fun hnone => ?noMsgtype, fun mt hmt => ?row⟩
    case noMsgtype => exact exec_udpDhcp_of_error (dhcpEntry_noMsgtype reply ho hnone) (by decide)
    case row =>
      have hrow := dhcpEnd_of_ok (dhcpEntry_ok reply ho hmt)
      refine ⟨fun hst htype => ?offer, fun hst htype => ?ackBind, fun hst htype => ?ackExtend, fun hst htype => ?nak,
        fun hnot => ?other⟩
      case offer => exact ⟨_, by rw [exec_udpDhcp, hrow, dhcpDispatchEnd_offer hst htype], exec_dhcpOffer ..⟩
      case ackBind => exact ⟨_, by rw [exec_udpDhcp, hrow, dhcpDispatchEnd_ackBind hst htype], exec_dhcpAckBind ..⟩
      case ackExtend => exact ⟨_, by rw [exec_udpDhcp, hrow, dhcpDispatchEnd_ackExtend hst htype], exec_dhcpAckExtend ..⟩
      case nak => rw [exec_udpDhcp, hrow, dhcpDispatchEnd_nak hst htype, State.complete_dhcpNak]
      case other => exact exec_udpDhcp_of_drop (hrow.trans (dhcpDispatchEnd_other hnot)) (by decide)

/-- Settles O35, by R149's three cases. -/
theorem dhcpOfferIsRequested : Obligations.DhcpOfferIsRequested := by
  intro y o s
  refine ⟨fun hnone => ?noServer, fun server hserver => ⟨fun hzero => ?badAddr, fun haddr hmac => ?requested⟩⟩
  case noServer =>
    rw [exec_dhcpOffer, dhcpOfferEnd_noServer hnone, State.complete_rx_drop s (by decide)]
    rfl
  case badAddr =>
    rw [exec_dhcpOffer, dhcpOfferEnd_of_server hserver, if_pos hzero, State.complete_rx_drop s (by decide)]
    rfl
  case requested =>
    rw [exec_dhcpOffer, dhcpOfferEnd_of_server hserver, if_neg haddr, State.complete_rx_sent hmac]

/-- Settles O38: the register copy of a NAK is R155's. -/
theorem dhcpNakAbandonsTheLease : Obligations.DhcpNakAbandonsTheLease := by
  intro s
  rw [exec_dhcpNak, State.complete_dhcpNak, Regs.abandoned]

end Sys2Proof.Machine

/-! The DHCP client's ticks and the five messages it sends: what each tick row does at its counts, and a frame byte for byte with
both checksums (47_dhcp_timer_tx.md R163 to R172). -/

namespace Sys2Proof.Machine

/-! ### The frame of a message (R168 to R172) -/

/-- R112's datagram byte for byte, the checksum of R83 over the header as it was built with a zero field. -/
theorem ipDatagram_eq (p : Params) (proto : Byte) (src dst : Ip) (payload : Bytes) :
    ipDatagram p proto src dst payload =
      [0x45, 0x00] ++ bytes16 (BitVec.ofNat 16 (20 + payload.length)) ++ [0x00, 0x00, 0x40, 0x00, p.defaultTtl, proto]
        ++ bytes16 (csum [ipHeaderZero p proto src dst payload.length]) ++ bytes32 src ++ bytes32 dst ++ payload := rfl

/-- R168's message with the padding of `chaddr`, `sname` and `file` run together: 10, 64 and 128 zero bytes. -/
theorem dhcpMsg_eq (r : Regs) (ciaddr : Ip) (options : Bytes) :
    dhcpMsg r ciaddr options =
      [0x01, 0x01, 0x06, 0x00] ++ bytes32 r.xid ++ [0x00, 0x00, 0x80, 0x00] ++ bytes32 ciaddr ++ zeros 12
        ++ bytes48 r.myMac ++ zeros 202 ++ [0x63, 0x82, 0x53, 0x63] ++ options := by
  have hzeros : zeros 202 = zeros 10 ++ (zeros 64 ++ zeros 128) := by simp only [zeros, List.replicate_append_replicate]
  have hflags : ([0x00, 0x00, 0x80, 0x00] : Bytes) = [0x00, 0x00] ++ [0x80, 0x00] := rfl
  simp only [dhcpMsg, hzeros, hflags, List.append_assoc]

/-- The message of each form: what `dhcpFrame` puts into its UDP datagram. -/
def DhcpForm.message (r : Regs) (form : DhcpForm) : Bytes := dhcpMsg r (form.ciaddr r) (form.options r)

/-- The bytes of each form's message: R168's 240 and the options of R169 and R170. -/
def DhcpForm.messageLength : DhcpForm → Nat
  | .discover => 244
  | .reqSelect => 256
  | .reqReboot => 250
  | .reqRenew => 244
  | .reqRebind => 244

theorem DhcpForm.length_message (r : Regs) (form : DhcpForm) : (form.message r).length = form.messageLength := by
  rw [DhcpForm.message, dhcpMsg_length]
  cases form <;> rfl

/-- The UDP length field of each form's datagram. -/
def DhcpForm.udpLength (form : DhcpForm) : Half := BitVec.ofNat 16 (8 + form.messageLength)

/-- The IPv4 total length field of each form's datagram. -/
def DhcpForm.totalLength (form : DhcpForm) : Half := BitVec.ofNat 16 (20 + (8 + form.messageLength))

theorem DhcpForm.toNat_udpLength (form : DhcpForm) : form.udpLength.toNat = 8 + form.messageLength := by
  cases form <;> rfl

theorem DhcpForm.toNat_totalLength (form : DhcpForm) : form.totalLength.toNat = 20 + (8 + form.messageLength) := by
  cases form <;> rfl

theorem dhcpFrame_length (p : Params) (r : Regs) (form : DhcpForm) :
    (dhcpFrame p r form).length = 14 + (20 + (8 + form.messageLength)) := by
  rw [dhcpFrame, ethFrame_length, ipDatagram_length, udpDatagram_length, ← DhcpForm.message, form.length_message]

/-- The UDP checksum of each form's datagram as R78 computes it, before R81's transmit rule. -/
def DhcpForm.udpSum (r : Regs) (form : DhcpForm) : Half :=
  csum [pseudo (form.ipSrc r) (form.ipDst r) 17 form.udpLength, udpZero 68 67 (form.message r)]

/-- R172's frame with its three headers written out, from port 68 to port 67. -/
theorem dhcpFrame_eq (p : Params) (r : Regs) (form : DhcpForm) :
    dhcpFrame p r form =
      bytes48 (form.ethDst r) ++ bytes48 r.myMac ++ [0x08, 0x00]
        ++ ([0x45, 0x00] ++ bytes16 form.totalLength ++ [0x00, 0x00, 0x40, 0x00, p.defaultTtl, 17]
          ++ bytes16 (csum [ipHeaderZero p 17 (form.ipSrc r) (form.ipDst r) (8 + form.messageLength)])
          ++ bytes32 (form.ipSrc r) ++ bytes32 (form.ipDst r))
        ++ (bytes16 68 ++ bytes16 67 ++ bytes16 form.udpLength ++ bytes16 (udpTransmitField (form.udpSum r)))
        ++ form.message r := by
  rw [dhcpFrame, ethFrame_eq, ipDatagram_eq, udpDatagram_length, udpDatagram_eq, ← DhcpForm.message, form.length_message]
  simp only [Config.protoUdp, Config.dhcpClientPort, Config.dhcpServerPort, DhcpForm.totalLength, DhcpForm.udpLength,
    DhcpForm.udpSum, List.append_assoc]

theorem Regs.serverResolved_iff (r : Regs) :
    r.serverResolved = true ↔ r.peerSt = .resolved ∧ r.peerIp = r.serverId ∧ r.serverId ≠ 0 := by
  simp only [Regs.serverResolved, Bool.and_eq_true, beq_iff_eq, bne_iff_ne, and_assoc]

/-- Settles O40: the bytes are those of `dhcpFrame_eq` and `dhcpMsg_eq`, and the fields of each form its rows in R169 to R171. -/
theorem dhcpFrameLayout : Obligations.DhcpFrameLayout := by
  intro p r form
  refine ⟨form.ethDst r, form.totalLength, form.udpLength, form.ipSrc r, form.ipDst r, form.ciaddr r, form.options r,
    form.message r, csum [ipHeaderZero p 17 (form.ipSrc r) (form.ipDst r) (8 + form.messageLength)],
    udpTransmitField (form.udpSum r), form.udpSum r, dhcpMsg_eq .., ?headerSum, ?udpSum, ?udpField, dhcpFrame_eq p r form,
    ?frameLength, ?totalLength, ?discover, ?reqSelect, ?reqReboot, ?reqRenew, ?reqRebind⟩
  case headerSum => rfl
  case udpSum => rw [DhcpForm.udpSum, pseudo, udpZero, form.length_message, DhcpForm.udpLength]
  case udpField => rfl
  case frameLength => rw [dhcpFrame_length, form.toNat_totalLength]
  case totalLength => rw [form.toNat_totalLength, form.toNat_udpLength]
  case discover => rintro rfl; exact ⟨rfl, rfl, rfl, rfl, rfl, rfl⟩
  case reqSelect => rintro rfl; exact ⟨rfl, rfl, rfl, rfl, rfl, rfl⟩
  case reqReboot => rintro rfl; exact ⟨rfl, rfl, rfl, rfl, rfl, rfl⟩
  case reqRenew =>
    rintro rfl
    exact ⟨rfl, rfl, rfl, rfl, fun hserver => if_pos hserver, fun hserver => if_neg hserver,
      fun hresolved => if_pos (r.serverResolved_iff.mpr hresolved),
      fun hresolved => if_neg (mt r.serverResolved_iff.mp hresolved)⟩
  case reqRebind => rintro rfl; exact ⟨rfl, rfl, rfl, rfl, rfl, rfl⟩

/-! ### How a TICK ends -/

section TickEnds

variable {s : State}

theorem State.complete_tick_quiet (hpend : s.tickPend ≠ 0) (r : Regs) :
    s.complete .tick (.finish r none) = s.tickDone r := by
  rw [State.complete_finish_none, State.close_tick_ok s r hpend]

theorem State.complete_tick_sent (hpend : s.tickPend ≠ 0) (hmac : s.macAccepts) (r : Regs) (t : Bytes) :
    s.complete .tick (.finish r (some t)) = s.tickSent r t := by
  rw [State.complete_finish_some, State.offer_of_accepts s .tick r t hmac, State.commitSent_tick s r t hpend]

/-- An emitting tick row commits its copy and its frame when the transmit MAC accepts. -/
theorem State.Emits.exec_tick_sent {q : State} {i : Instr} {r : Regs} {f : Bytes} (h : s.Emits i q .tick r f)
    (hpend : q.tickPend ≠ 0) (hmac : q.macAccepts) : exec i s = .next (q.tickSent r f) := by
  rw [h.exec_eq, State.complete_tick_sent hpend hmac]

end TickEnds

/-! ### The rows at their counts (R163 to R166); `e` is the saturating count of the tick -/

section TickRows

variable {p : Params} {r : Regs} {e : Word} (he : e.toNat = min (r.elapsed.toNat + 1) 0xFFFFFFFF)
include he

/-- The first line of R163 to R166. -/
theorem Regs.age_of_count : r.age = { r with elapsed := e } := by rw [Regs.age, satInc_eq_of_toNat _ _ he]

theorem tickSelectingEnd_of_count :
    tickSelectingEnd p r =
      if r.tmo.toNat ≤ e.toNat then .finish { r.abandoned with tmo := backoff p r.tmo } none
      else .finish { r with elapsed := e } none := by
  rw [tickSelectingEnd, Regs.age_of_count he]
  rfl

/-- R164 with no retry left, or before the timeout; the resend is `State.Emits.tickRequesting`. -/
theorem tickRequestingEnd_of_quiet (h : e.toNat < r.tmo.toNat ∨ p.maxRetries.toNat ≤ r.retry.toNat) :
    tickRequestingEnd p r = tickSelectingEnd p r := by
  rw [tickRequestingEnd, tickSelectingEnd, Regs.age_of_count he]
  obtain hcount | hretry := h
  · rw [if_neg (Nat.not_le.mpr hcount), if_neg (Nat.not_le.mpr hcount)]
  · rw [if_neg (Nat.not_lt.mpr hretry)]

theorem tickRebootingEnd_of_count :
    tickRebootingEnd r =
      if 7 ≤ e.toNat then .finish r.abandoned none else .finish { r with elapsed := e } none := by
  rw [tickRebootingEnd, Regs.age_of_count he]
  rfl

theorem tickLeaseEnd_expired (h : r.lease.toNat ≤ e.toNat) : tickLeaseEnd p r = .finish r.abandoned none := by
  rw [tickLeaseEnd, Regs.age_of_count he]
  exact if_pos h

/-- R166 with none of its three tests met. -/
theorem tickLeaseEnd_ages (hlease : e.toNat < r.lease.toNat) (ht2 : e.toNat < r.t2.toNat ∨ r.dstate = .rebinding)
    (ht1 : e.toNat < r.t1.toNat ∨ r.dstate ≠ .bound) : tickLeaseEnd p r = .finish { r with elapsed := e } none := by
  have hnot2 : ¬ (r.t2.toNat ≤ e.toNat ∧ r.dstate ≠ .rebinding) := by
    rwa [not_and_or, not_not, Nat.not_le]
  have hnot1 : ¬ (r.t1.toNat ≤ e.toNat ∧ r.dstate = .bound) := by
    rwa [not_and_or, Nat.not_le]
  simp only [tickLeaseEnd, Regs.age_of_count he]
  rw [if_neg (Nat.not_le.mpr hlease), if_neg hnot2, if_neg hnot1]

end TickRows

/-! ### The tick instructions -/

theorem exec_tickSelecting (s : State) :
    exec .tickSelecting s = .next (s.complete .tick (tickSelectingEnd s.params s.regs)) := rfl

theorem exec_tickRequesting (s : State) :
    exec .tickRequesting s = .next (s.complete .tick (tickRequestingEnd s.params s.regs)) := rfl

theorem exec_tickRebooting (s : State) :
    exec .tickRebooting s = .next (s.complete .tick (tickRebootingEnd s.regs)) := rfl

/-- The three states that hold a lease share one row (R166). -/
theorem exec_tickLease {i : Instr} (hi : i = .tickBound ∨ i = .tickRenewing ∨ i = .tickRebinding) (s : State) :
    exec i s = .next (s.complete .tick (tickLeaseEnd s.params s.regs)) := by
  obtain rfl | rfl | rfl := hi <;> rfl

/-- Settles O15, by R163's test of the count. -/
theorem tickSelectingWaitsForAnOffer : Obligations.TickSelectingWaitsForAnOffer := by
  intro s e hpend he
  rw [exec_tickSelecting, tickSelectingEnd_of_count he]
  refine ⟨fun hcount => ?waits, fun hcount => ?givesUp⟩
  case waits => rw [if_neg (Nat.not_le.mpr hcount), State.complete_tick_quiet hpend]
  case givesUp => rw [if_pos hcount, State.complete_tick_quiet hpend]

/-- Settles O16: without a resend the row is SELECTING's, and the resend is the emitting row of R164. -/
theorem tickRequestingRetriesBounded : Obligations.TickRequestingRetriesBounded := by
  intro s e hpend he
  refine ⟨fun hcount => ?waits, fun hcount hretry hmac => ?resends, fun hcount hretry => ?givesUp⟩
  case waits =>
    rw [exec_tickRequesting, tickRequestingEnd_of_quiet he (.inl hcount), tickSelectingEnd_of_count he,
      if_neg (Nat.not_le.mpr hcount), State.complete_tick_quiet hpend]
  case resends =>
    have emits := State.Emits.tickRequesting (s := s) _ (hcount.trans he.le) hretry rfl
    exact emits.exec_tick_sent hpend hmac
  case givesUp =>
    rw [exec_tickRequesting, tickRequestingEnd_of_quiet he (.inr hretry), tickSelectingEnd_of_count he,
      if_pos hcount, State.complete_tick_quiet hpend]

/-- Settles O17, by R165's test of the count against 7. -/
theorem tickRebootingWaitsAFixedTime : Obligations.TickRebootingWaitsAFixedTime := by
  intro s e hpend he
  rw [exec_tickRebooting, tickRebootingEnd_of_count he]
  refine ⟨fun hcount => ?waits, fun hcount => ?givesUp⟩
  case waits => rw [if_neg (Nat.not_le.mpr hcount), State.complete_tick_quiet hpend]
  case givesUp => rw [if_pos hcount, State.complete_tick_quiet hpend]

/-- Settles O18, by R166's three tests in order; the two that send are emitting rows. -/
theorem tickLeaseAgesTheLease : Obligations.TickLeaseAgesTheLease := by
  intro s e i hi hpend he
  refine ⟨fun hexpired => ?expires, fun hlease ht2 hst hmac => ?rebinds, fun hlease ht2 ht1 hst hmac => ?renews,
    fun hlease ht2 ht1 => ?ages⟩
  case expires => rw [exec_tickLease hi, tickLeaseEnd_expired he hexpired, State.complete_tick_quiet hpend]
  case rebinds => exact (State.Emits.tickRebind i e _ hi he hlease ht2 hst rfl).exec_tick_sent hpend hmac
  case renews => exact (State.Emits.tickRenew i e _ hi he hlease ht2 ht1 hst rfl).exec_tick_sent hpend hmac
  case ages => rw [exec_tickLease hi, tickLeaseEnd_ages he hlease ht2 ht1, State.complete_tick_quiet hpend]

/-! ### The response timeout (R167) -/

/-- The minimum is at most the cap, so it fits the 16-bit register. -/
theorem toNat_backoff (p : Params) (t : Half) : (backoff p t).toNat = min (2 * t.toNat) p.backoffCap.toNat := by
  have hfits : min (2 * t.toNat) p.backoffCap.toNat < 2 ^ 16 := (min_le_right _ _).trans_lt p.backoffCap.isLt
  rw [backoff, BitVec.toNat_ofNat, Nat.mod_eq_of_lt hfits]

/-- Settles O19: R167's law for every timeout, and its sequence at the vectors' cap. -/
theorem backoffDoublesUpToTheCap : Obligations.BackoffDoublesUpToTheCap :=
  ⟨toNat_backoff, by decide⟩

end Sys2Proof.Machine

/-! The host's commands: what each row of `CMD_OP` leaves, and the ARP request byte for byte (48_host_ops.md R174 to R177,
42_arp.md R99). -/

namespace Sys2Proof.Machine

/-! ### How a CMD ends -/

section CmdEnds

variable (s : State)

theorem State.complete_cmd_drop (c : StatusCode) : s.complete .cmd (.drop c) = s.cmdDone s.regs c.code := by
  rw [State.complete_drop, ← State.close_cmd]

theorem State.complete_cmd_quiet (r : Regs) : s.complete .cmd (.finish r none) = s.cmdDone r 0x00 := by
  rw [State.complete_finish_none, State.close_cmd, StatusCode.code]

variable {s}

theorem State.complete_cmd_sent (hmac : s.macAccepts) (r : Regs) (t : Bytes) :
    s.complete .cmd (.finish r (some t)) = s.cmdSent r t := by
  rw [State.complete_finish_some, State.offer_of_accepts s .cmd r t hmac, State.commitSent_cmd]

/-- An emitting command commits its copy and its frame when the transmit MAC accepts. -/
theorem State.Emits.exec_cmd_sent {q : State} {i : Instr} {r : Regs} {f : Bytes} (h : s.Emits i q .cmd r f)
    (hmac : q.macAccepts) : exec i s = .next (q.cmdSent r f) := by
  rw [h.exec_eq, State.complete_cmd_sent hmac]

end CmdEnds

/-! ### The two cases of R175 -/

section Restart

variable {r : Regs}

theorem cmdDhcpRestartEnd_noClient (h : r.dhcpEn = false) : cmdDhcpRestartEnd r = .finish r none :=
  if_pos (by simp [h])

/-- R175's order of writes does not matter: `abandon_lease()` keeps `TMO` (R155). -/
theorem cmdDhcpRestartEnd_client (h : r.dhcpEn = true) :
    cmdDhcpRestartEnd r = .finish { r.abandoned with tmo := 7 } none :=
  if_neg (by simp [h])

end Restart

/-- R99's frame byte for byte. -/
theorem arpRequestFrame_eq (r : Regs) (ip : Ip) :
    arpRequestFrame r ip =
      [0xFF, 0xFF, 0xFF, 0xFF, 0xFF, 0xFF] ++ bytes48 r.myMac ++ [0x08, 0x06]
        ++ [0x00, 0x01, 0x08, 0x00, 0x06, 0x04] ++ [0x00, 0x01]
        ++ bytes48 r.myMac ++ bytes32 r.myIp ++ zeros 6 ++ bytes32 ip := by
  have hbroadcast : bytes48 Config.broadcastMac = [0xFF, 0xFF, 0xFF, 0xFF, 0xFF, 0xFF] := by decide
  have htype : bytes16 Config.etherTypeArp = [0x08, 0x06] := by decide
  have hoper : bytes16 1 = [0x00, 0x01] := by decide
  have hunknown : bytes48 0 = zeros 6 := by decide
  simp only [arpRequestFrame, ethHeader, arpPacket, hbroadcast, htype, hoper, hunknown, List.append_assoc]

/-! ### The command instructions -/

theorem exec_cmdNop (s : State) : exec .cmdNop s = .next (s.complete .cmd (.finish s.regs none)) := rfl

theorem exec_cmdReserved (op : BitVec 8) (s : State) :
    exec (.cmdReserved op) s = .next (s.complete .cmd (.drop .cmdReserved)) := rfl

theorem exec_cmdDhcpRestart (s : State) :
    exec .cmdDhcpRestart s = .next (s.complete .cmd (cmdDhcpRestartEnd s.regs)) := rfl

/-- Settles O9: CMD_NOP finishes on the registers as they are, a reserved command drops with its code (R174, R177). -/
theorem cmdNopAndReservedOnlyComplete : Obligations.CmdNopAndReservedOnlyComplete := by
  refine fun s => ⟨?nop, fun op => ?reserved⟩
  case nop => rw [exec_cmdNop, State.complete_cmd_quiet]
  case reserved => rw [exec_cmdReserved, State.complete_cmd_drop, StatusCode.code]

/-- Settles O10, by R175's two cases. -/
theorem cmdDhcpRestartAbandons : Obligations.CmdDhcpRestartAbandons := by
  intro s
  refine ⟨fun hoff => ?noClient, fun hon => ?client⟩
  case noClient => rw [exec_cmdDhcpRestart, cmdDhcpRestartEnd_noClient hoff, State.complete_cmd_quiet]
  case client => rw [exec_cmdDhcpRestart, cmdDhcpRestartEnd_client hon, State.complete_cmd_quiet]

/-- Settles O11: the command is R176's emitting row; the peer's registers are not in the frame, whose bytes are R99's. -/
theorem cmdArpResolveAsksForThePeer : Obligations.CmdArpResolveAsksForThePeer := by
  intro ip s hmac
  have emits := State.Emits.cmdArpResolve (s := s) ip _ rfl
  rw [emits.exec_cmd_sent hmac, arpRequestFrame_eq]

end Sys2Proof.Machine

/-! The drops of the RX operation that no check of the row decides: a frame the receive MAC flagged, and the rows whose whole effect
is a drop (60_exceptions.md R188; 41_ethernet_classifier.md R87, R88, R91 and the level files). -/

namespace Sys2Proof.Machine

section RxDrops

variable {s : State}

/-! ### A flagged frame (R188) -/

/-- The end of the operation is settled before the classifier reads a byte of the frame. -/
theorem rxEnd_of_flagged {p : Params} {r : Regs} {f : RxFrame} (h : f.err = true) : rxEnd p r f = .drop .ifRxError :=
  if_pos h

theorem exec_rx_of_cons {f : RxFrame} {rest : List RxFrame} (h : s.rxFifo = f :: rest) :
    exec .rx s = .next (s.complete .rx (rxEnd s.params s.regs f)) := by
  simp only [exec, execRx, h]

/-! ### The rows whose effect is a drop -/

/-- The instruction is a row whose whole effect is `Drop` with this status. -/
inductive DropRow : Instr → StatusCode → Prop where
  | ethRunt (n : Nat) : DropRow (.ethRunt n) .ethRunt
  | ethOversize (n : Nat) : DropRow (.ethOversize n) .ethOversize
  | eth8023 (n : Half) : DropRow (.eth8023 n) .eth8023
  | ethOther (et : Half) : DropRow (.ethOther et) .ethUnknownType
  | arpBadOper (oper : Half) : DropRow (.arpBadOper oper) .arpBadOper
  | ipOther (proto : Byte) : DropRow (.ipOther proto) .ipUnknownProto
  | icmpOther (type : Byte) : DropRow (.icmpOther type) .icmpNotEcho
  | udpOther (sport dport : Half) : DropRow (.udpOther sport dport) .udpNoListener
  | dhcpOther (msgType : Byte) : DropRow (.dhcpOther msgType) .dhcpUnexpected

section Row

variable {i : Instr} {c : StatusCode}

theorem DropRow.exec_eq (h : DropRow i c) : exec i s = .next (s.complete .rx (.drop c)) := by
  cases h <;> rfl

theorem DropRow.status_ne_ok (h : DropRow i c) : c ≠ .ok := by
  cases h <;> decide

theorem DropRow.exec_rxDropped (h : DropRow i c) : exec i s = .next (s.rxDropped c.code) := by
  rw [h.exec_eq, State.complete_rx_drop s h.status_ne_ok]

end Row

end RxDrops

/-- Settles O20: a flagged frame ends RX with R188's drop, and each other clause is a row of `DropRow` with its code from R180's
table. -/
theorem dropRowsLeaveTheirCode : Obligations.DropRowsLeaveTheirCode := by
  intro s
  refine ⟨fun f rest hfifo hflag => ?flagged, fun n => ?runt, fun n => ?oversize, fun n => ?len8023, fun n => ?etherType,
    fun n => ?oper, fun n => ?protocol, fun n => ?icmpType, fun a b => ?ports, fun n => ?msgType⟩
  case flagged => rw [exec_rx_of_cons hfifo, rxEnd_of_flagged hflag, State.complete_rx_drop s (by decide), StatusCode.code]
  case runt => exact (DropRow.ethRunt n).exec_rxDropped
  case oversize => exact (DropRow.ethOversize n).exec_rxDropped
  case len8023 => exact (DropRow.eth8023 n).exec_rxDropped
  case etherType => exact (DropRow.ethOther n).exec_rxDropped
  case oper => exact (DropRow.arpBadOper n).exec_rxDropped
  case protocol => exact (DropRow.ipOther n).exec_rxDropped
  case icmpType => exact (DropRow.icmpOther n).exec_rxDropped
  case ports => exact (DropRow.udpOther a b).exec_rxDropped
  case msgType => exact (DropRow.dhcpOther n).exec_rxDropped

end Sys2Proof.Machine

/-! The RESET operation against R200's table (70_reset_and_hazards.md R200, R201). -/

namespace Sys2Proof.Machine

/-- R200's `lease`, as the table's rows for `DSTATE`, `DH_ADDR` and `SERVER_ID` spell it. -/
theorem Pins.remembersLease_iff (c : Pins) :
    c.remembersLease = true ↔ c.cfgDhcpEn = true ∧ c.cfgHasLease = true := by
  rw [Pins.remembersLease, Bool.and_eq_true]

/-- The reset value of `TMO` as the 16-bit number of R200's table. -/
theorem ofNat_dhcpTimerLap : BitVec.ofNat 16 Config.dhcpTimerLap = 7 := rfl

theorem exec_reset (s : State) : exec .reset s = .next s.resetBlock := rfl

/-- Settles O1: RESET is the block update, whose register file is R200's table once `lease` is spelt out. FIFO and transmit stream
are not among the fields it writes (R201). -/
theorem resetSetsEveryRegister : Obligations.ResetSetsEveryRegister := by
  intro s
  rw [exec_reset, State.resetBlock, Regs.atReset]
  simp only [Pins.remembersLease_iff, ofNat_dhcpTimerLap]

end Sys2Proof.Machine

/-! The engine's turn: the row that each pending input runs, and what one step of the machine can do, said once
(60_exceptions.md R183, R184, R190, R196, R199; 41_ethernet_classifier.md R86 to R92). -/

namespace Sys2Proof.Machine

/-! ### The CMD operation (R173) -/

theorem exec_cmd (s : State) : exec .cmd s = .next (s.complete .cmd (commandEnd s.regs s.cmdOp s.cmdArg)) := rfl

theorem exec_cmdArpResolve (ip : Ip) (s : State) :
    exec (.cmdArpResolve ip) s = .next (s.complete .cmd (cmdArpResolveEnd s.regs ip)) := rfl

/-- The four cases of the command map (R70). -/
theorem cmdOp_cases (op : BitVec 8) : op = 0 ∨ op = 1 ∨ op = 2 ∨ 3 ≤ op.toNat := by
  by_cases hlow : op.toNat < 3
  · have hcase : op.toNat = 0 ∨ op.toNat = 1 ∨ op.toNat = 2 := by omega
    obtain h | h | h := hcase
    · exact .inl (BitVec.eq_of_toNat_eq h)
    · exact .inr (.inl (BitVec.eq_of_toNat_eq h))
    · exact .inr (.inr (.inl (BitVec.eq_of_toNat_eq h)))
  · exact .inr (.inr (.inr (Nat.not_lt.mp hlow)))

theorem ne_of_three_le {op v : BitVec 8} (h : 3 ≤ op.toNat) (hv : v.toNat < 3) : op ≠ v := by
  rintro rfl
  omega

theorem decodeCommand_reserved {op : BitVec 8} (h : 3 ≤ op.toNat) (arg : BitVec 32) :
    decodeCommand op arg = .cmdReserved op := by
  rw [decodeCommand, if_neg (ne_of_three_le h (by decide)), if_neg (ne_of_three_le h (by decide)),
    if_neg (ne_of_three_le h (by decide))]

theorem commandEnd_reserved {op : BitVec 8} (h : 3 ≤ op.toNat) (r : Regs) (arg : BitVec 32) :
    commandEnd r op arg = .drop .cmdReserved := by
  unfold commandEnd
  split
  case h_4 => rfl
  all_goals omega

/-- A command completes as its row, whichever of the two the engine runs. -/
theorem exec_decodeCommand (op : BitVec 8) (arg : BitVec 32) (s : State) :
    exec (decodeCommand op arg) s = .next (s.complete .cmd (commandEnd s.regs op arg)) := by
  obtain rfl | rfl | rfl | hreserved := cmdOp_cases op
  · exact exec_cmdNop s
  · exact exec_cmdDhcpRestart s
  · exact exec_cmdArpResolve arg s
  · rw [decodeCommand_reserved hreserved, commandEnd_reserved hreserved, exec_cmdReserved]

/-- A CMD operation that the transmit MAC does not keep waiting clears `CMD_VALID` (R186). -/
theorem State.complete_cmd_cmdValid {s : State} (h : s.macAccepts ∨ s.macRefuses) (e : OpEnd) :
    (s.complete .cmd e).cmdValid = false := by
  match e with
  | .drop c => rfl
  | .finish r none => rfl
  | .finish r (some t) =>
    obtain haccepts | hrefuses := h
    · rw [State.complete_finish_some, State.offer_of_accepts s _ r t haccepts]; rfl
    · rw [State.complete_finish_some, State.offer_of_refuses s _ r t hrefuses]; rfl

/-- Settles O12: CMD and the row of `CMD_OP` complete with the same end. -/
theorem cmdRunsTheRowOfCmdOp : Obligations.CmdRunsTheRowOfCmdOp := by
  intro s
  refine ⟨⟨_, exec_cmd s, exec_decodeCommand .., fun hmac => State.complete_cmd_cmdValid hmac _⟩, fun hop => ?nop,
    fun hop => ?restart, fun hop => ?resolve, fun hop => decodeCommand_reserved hop _⟩
  case nop => rw [hop]; rfl
  case restart => rw [hop]; rfl
  case resolve => rw [hop]; rfl

/-! ### The TICK operation (R160) -/

/-- How the TICK operation ends, `x` being the value drawn where the row draws one. -/
def tickEnd (p : Params) (r : Regs) (x : Word) : OpEnd :=
  if r.dhcpEn = false then tickStaticEnd r
  else
    match r.dstate with
    | .init => tickInitEnd p r x
    | .initReboot => tickInitRebootEnd p r x
    | .selecting => tickSelectingEnd p r
    | .requesting => tickRequestingEnd p r
    | .rebooting => tickRebootingEnd r
    | .bound => tickLeaseEnd p r
    | .renewing => tickLeaseEnd p r
    | .rebinding => tickLeaseEnd p r

/-- The state on which the TICK operation completes: after the draw where the row draws a value (R161, R162). -/
def State.afterTickDraw (s : State) : State :=
  if s.regs.dhcpEn = true ∧ (s.regs.dstate = .init ∨ s.regs.dstate = .initReboot) then s.drawn else s

theorem State.afterTickDraw_eq (s : State) : s.afterTickDraw = s ∨ s.afterTickDraw = s.drawn := by
  rw [State.afterTickDraw]
  split
  · exact .inr rfl
  · exact .inl rfl

/-- A tick completes as the row of `DHCP_EN` and `DSTATE`. -/
theorem exec_decodeTick (s : State) :
    exec (decodeTick s.regs.dhcpEn s.regs.dstate) s =
      .next (s.afterTickDraw.complete .tick (tickEnd s.params s.regs s.drawValue)) := by
  rw [tickEnd, State.afterTickDraw]
  cases henabled : s.regs.dhcpEn
  case false => rfl
  case true => cases s.regs.dstate <;> rfl

theorem exec_tick (s : State) :
    exec .tick s = .next (s.afterTickDraw.complete .tick (tickEnd s.params s.regs s.drawValue)) := by
  rw [show exec .tick s = execTick s from rfl, execTick, tickEnd, State.afterTickDraw]
  cases henabled : s.regs.dhcpEn
  case false => rfl
  case true => cases s.regs.dstate <;> rfl

theorem exec_tickStatic (s : State) : exec .tickStatic s = .next (s.complete .tick (.finish s.regs none)) := rfl

/-- Settles O13: TICK and the row of `DHCP_EN` and `DSTATE` complete with the same end. -/
theorem tickRunsTheRowOfTheState : Obligations.TickRunsTheRowOfTheState := by
  intro s
  refine ⟨⟨_, exec_tick s, exec_decodeTick s⟩, fun _ => rfl, rfl, rfl, rfl, rfl, rfl, rfl, rfl, rfl, fun hpend => ?static⟩
  case static => rw [exec_tickStatic, State.complete_tick_quiet hpend]

/-! ### The RX operation: each level's decoded row completes as the level does (R92) -/

section Decoders

variable {p : Params} {r : Regs} {ethSrc : Mac} {src dst : Ip} {bs : Bytes} {c : StatusCode}

theorem decodeArp_of_error (h : arpEntry bs = .error c) : decodeArp ethSrc bs = .ethArp ethSrc bs := by
  simp only [decodeArp, h]

theorem decodeArp_of_ok {oper : Half} {a : ArpAddrs} (h : arpEntry bs = .ok (oper, a)) :
    decodeArp ethSrc bs =
      if oper = 1 then .arpRequest ethSrc a else if oper = 2 then .arpReply a else .arpBadOper oper := by
  simp only [decodeArp, h]

theorem decodeIcmp_of_error (h : icmpEntry bs = .error c) : decodeIcmp ethSrc src dst bs = .ipIcmp ethSrc src dst bs := by
  simp only [decodeIcmp, h]

theorem decodeIcmp_of_ok {type code : Byte} {rest : Bytes} (h : icmpEntry bs = .ok ⟨type, code, rest⟩) :
    decodeIcmp ethSrc src dst bs = if type = 8 then .icmpEcho ethSrc src code rest else .icmpOther type := by
  simp only [decodeIcmp, h]
  rfl

theorem decodeTcp_of_error (h : tcpEntry bs = .error c) : decodeTcp bs = .ipTcp bs := by simp only [decodeTcp, h]

theorem decodeTcp_of_ok {header : TcpHeader} (h : tcpEntry bs = .ok header) : decodeTcp bs = .tcpInspect header := by
  simp only [decodeTcp, h]

theorem decodeDhcp_of_error (h : dhcpEntry p r bs = .error c) : decodeDhcp p r bs = .udpDhcp bs := by
  simp only [decodeDhcp, h]

theorem decodeDhcp_of_ok {m : DhcpFields} (h : dhcpEntry p r bs = .ok m) :
    decodeDhcp p r bs = decodeDhcpType r.dstate m := by simp only [decodeDhcp, h]

theorem decodeUdp_of_error (h : udpEntry src dst bs = .error c) : decodeUdp p r src dst bs = .ipUdp src dst bs := by
  simp only [decodeUdp, h]

theorem decodeUdp_of_ok {sport dport : Half} {data : Bytes} (h : udpEntry src dst bs = .ok ⟨sport, dport, data⟩) :
    decodeUdp p r src dst bs = if sport = 67 ∧ dport = 68 then decodeDhcp p r data else .udpOther sport dport := by
  simp only [decodeUdp, h]
  rfl

theorem decodeIpv4_of_error (h : ipEntry r bs = .error c) : decodeIpv4 p r ethSrc bs = .ethIpv4 ethSrc bs := by
  simp only [decodeIpv4, h]

theorem decodeIpv4_of_ok {proto : Byte} {payload : Bytes} (h : ipEntry r bs = .ok ⟨src, dst, proto, payload⟩) :
    decodeIpv4 p r ethSrc bs =
      if proto = 1 then decodeIcmp ethSrc src dst payload
      else if proto = 17 then decodeUdp p r src dst payload
      else if proto = 6 then decodeTcp payload
      else .ipOther proto := by
  simp only [decodeIpv4, h]
  rfl

end Decoders

section Levels

variable (s : State)

theorem exec_decodeArp (ethSrc : Mac) (pkt : Bytes) :
    exec (decodeArp ethSrc pkt) s = .next (s.complete .rx (arpEnd s.regs ethSrc pkt)) := by
  match hentry : arpEntry pkt with
  | .error c => rw [decodeArp_of_error hentry, exec_ethArp]
  | .ok (oper, a) =>
    rw [decodeArp_of_ok hentry, arpEnd_of_ok hentry]
    split
    · exact exec_arpRequest ethSrc a s
    split
    · exact exec_arpReply a s
    · exact (DropRow.arpBadOper oper).exec_eq

theorem exec_decodeIcmp (ethSrc : Mac) (src dst : Ip) (msg : Bytes) :
    exec (decodeIcmp ethSrc src dst msg) s = .next (s.complete .rx (icmpEnd s.params s.regs ethSrc src msg)) := by
  match hentry : icmpEntry msg with
  | .error c => rw [decodeIcmp_of_error hentry, exec_ipIcmp]
  | .ok ⟨type, code, rest⟩ =>
    rw [decodeIcmp_of_ok hentry, icmpEnd_of_ok hentry]
    split
    · exact exec_icmpEcho ethSrc src code rest s
    · exact (DropRow.icmpOther type).exec_eq

theorem exec_decodeTcp (segment : Bytes) :
    exec (decodeTcp segment) s = .next (s.complete .rx (tcpEnd s.regs segment)) := by
  match hentry : tcpEntry segment with
  | .error c => rw [decodeTcp_of_error hentry, exec_ipTcp]
  | .ok h => rw [decodeTcp_of_ok hentry, tcpEnd_of_ok hentry, exec_tcpInspect]

/-- The decoder's conditions and R148's table choose the same row. -/
theorem exec_decodeDhcpType (m : DhcpFields) :
    exec (decodeDhcpType s.regs.dstate m) s = .next (s.complete .rx (dhcpDispatchEnd s.params s.regs m)) := by
  rw [decodeDhcpType]
  split
  case isTrue h => rw [exec_dhcpOffer, dhcpDispatchEnd_offer h.2 h.1]
  split
  case isTrue h => rw [exec_dhcpAckBind, dhcpDispatchEnd_ackBind h.2 h.1]
  split
  case isTrue h => rw [exec_dhcpAckExtend, dhcpDispatchEnd_ackExtend h.2 h.1]
  split
  case isTrue h => rw [exec_dhcpNak, dhcpDispatchEnd_nak h.2 h.1]
  case isFalse hoffer hbind hextend hnak =>
    rw [(DropRow.dhcpOther m.msgType).exec_eq, dhcpDispatchEnd_other]
    by_cases hselecting : s.regs.dstate = .selecting
    · exact .inr (.inr (.inr (.inl ⟨hselecting, fun hmt => hoffer ⟨hmt, hselecting⟩⟩)))
    obtain (hst | hst | hst) | hbinding | hextending := DState.cases_of_ne_selecting hselecting
    · exact .inl hst
    · exact .inr (.inl hst)
    · exact .inr (.inr (.inl hst))
    · exact .inr (.inr (.inr (.inr ⟨hselecting, fun hmt => hbind ⟨hmt, hbinding⟩,
        fun hmt => hnak ⟨hmt, or_assoc.mp (.inl hbinding)⟩⟩)))
    · exact .inr (.inr (.inr (.inr ⟨hselecting, fun hmt => hextend ⟨hmt, hextending⟩,
        fun hmt => hnak ⟨hmt, or_assoc.mp (.inr hextending)⟩⟩)))

theorem exec_decodeDhcp (d : Bytes) :
    exec (decodeDhcp s.params s.regs d) s = .next (s.complete .rx (dhcpEnd s.params s.regs d)) := by
  match hentry : dhcpEntry s.params s.regs d with
  | .error c => rw [decodeDhcp_of_error hentry, exec_udpDhcp]
  | .ok m => rw [decodeDhcp_of_ok hentry, dhcpEnd_of_ok hentry, exec_decodeDhcpType]

theorem exec_decodeUdp (src dst : Ip) (payload : Bytes) :
    exec (decodeUdp s.params s.regs src dst payload) s =
      .next (s.complete .rx (udpEnd s.params s.regs src dst payload)) := by
  match hentry : udpEntry src dst payload with
  | .error c => rw [decodeUdp_of_error hentry, exec_ipUdp]
  | .ok ⟨sport, dport, data⟩ =>
    rw [decodeUdp_of_ok hentry, udpEnd_of_ok hentry]
    split
    · exact exec_decodeDhcp s data
    · exact (DropRow.udpOther sport dport).exec_eq

theorem exec_decodeIpv4 (ethSrc : Mac) (dgram : Bytes) :
    exec (decodeIpv4 s.params s.regs ethSrc dgram) s =
      .next (s.complete .rx (ipv4End s.params s.regs ethSrc dgram)) := by
  match hentry : ipEntry s.regs dgram with
  | .error c => rw [decodeIpv4_of_error hentry, exec_ethIpv4]
  | .ok ⟨src, dst, proto, payload⟩ =>
    rw [decodeIpv4_of_ok hentry, ipv4End_of_ok hentry]
    split
    · exact exec_decodeIcmp s ethSrc src dst payload
    split
    · exact exec_decodeUdp s src dst payload
    split
    · exact exec_decodeTcp s payload
    · exact (DropRow.ipOther proto).exec_eq

/-- The classifier and the decoder test the same conditions in the same order. -/
theorem exec_decodeFrame (f : Bytes) :
    exec (decodeFrame s.params s.regs f) s = .next (s.complete .rx (classify s.params s.regs f)) := by
  simp only [decodeFrame, classify]
  split
  · exact (DropRow.ethRunt f.length).exec_eq
  split
  · exact (DropRow.ethOversize f.length).exec_eq
  split
  · exact (DropRow.eth8023 _).exec_eq
  split
  · exact exec_decodeArp s ..
  split
  · exact exec_decodeIpv4 s ..
  · exact (DropRow.ethOther _).exec_eq

end Levels

/-- Settles O21: RX on an unflagged frame and the row its bytes decode to complete with the classifier's end. -/
theorem rxRunsTheDecodedRow : Obligations.RxRunsTheDecodedRow := by
  rintro s ⟨bytes, _⟩ rest hfifo rfl
  exact ⟨_, exec_rx_of_unflagged hfifo, exec_decodeFrame s bytes⟩

/-! ### The arbiter (R184) -/

section Arbiter

variable {s : State}

theorem startOperation_of_fetch {port : Port} {bs : Bytes} {i : Instr} (hfetch : s.fetch = some (port, bs))
    (hdecode : decode s.params s.regs port bs = .ok i) : startOperation s = exec i s := by
  simp only [startOperation, hfetch, hdecode]

theorem startOperation_reset (hreset : s.resetIn = true) : startOperation s = exec .reset s :=
  startOperation_of_fetch (if_pos hreset) rfl

variable (hreset : s.resetIn = false)
include hreset

theorem startOperation_cmd (hcmd : s.cmdValid = true) :
    startOperation s = exec (decodeCommand s.cmdOp s.cmdArg) s := by
  refine startOperation_of_fetch ?_ (decode_command ..)
  simp [State.fetch, hreset, hcmd]

variable (hcmd : s.cmdValid = false)
include hcmd

theorem startOperation_tick (hpend : s.tickPend ≠ 0) :
    startOperation s = exec (decodeTick s.regs.dhcpEn s.regs.dstate) s := by
  refine startOperation_of_fetch ?_ (decode_tick ..)
  rw [State.fetch, if_neg (by simp [hreset]), if_neg (by simp [hcmd]), if_pos hpend]

variable (hpend : s.tickPend = 0)
include hpend

theorem startOperation_frame {f : RxFrame} {rest : List RxFrame} (hfifo : s.rxFifo = f :: rest) (herr : f.err = false) :
    startOperation s = exec (decodeFrame s.params s.regs f.bytes) s := by
  refine startOperation_of_fetch (port := .frame) (bs := f.bytes) ?_ rfl
  simp [State.fetch, hreset, hcmd, hpend, hfifo, herr]

theorem startOperation_flagged {f : RxFrame} {rest : List RxFrame} (hfifo : s.rxFifo = f :: rest) (herr : f.err = true) :
    startOperation s = exec .rx s := by
  refine startOperation_of_fetch (port := .operation) (bs := [4]) ?_ rfl
  simp [State.fetch, hreset, hcmd, hpend, hfifo, herr]

theorem startOperation_idle (hfifo : s.rxFifo = []) : startOperation s = .next s := by
  simp [startOperation, State.fetch, hreset, hcmd, hpend, hfifo]

end Arbiter

theorem startOperation_next (s : State) : ∃ t, startOperation s = .next t := by
  match hfetch : s.fetch with
  | none => exact ⟨s, by simp only [startOperation, hfetch]⟩
  | some (port, bs) =>
    obtain ⟨i, hdecode⟩ := fetch_decodes s port bs hfetch
    rw [startOperation_of_fetch hfetch hdecode]
    exact exec_next i s

/-! ### The engine's turn (R190, R196) -/

section Turn

variable {s : State}

theorem engineStep_of_idle (h : s.held = none ∨ s.resetIn = true) : engineStep s = startOperation s := by
  unfold engineStep
  split
  case h_1 held hheld => rw [if_pos (h.resolve_left (by simp [hheld]))]
  case h_2 => rfl

theorem engineStep_of_held {h : Held} (hheld : s.held = some h) (hreset : s.resetIn = false) :
    engineStep s = .next (s.resume h) := by
  simp [engineStep, hheld, hreset]

/-- Either the engine may start an operation, or one in progress goes on. -/
theorem State.idle_or_held (s : State) :
    (s.held = none ∨ s.resetIn = true) ∨ ∃ h, s.held = some h ∧ s.resetIn = false := by
  cases hheld : s.held <;> cases hreset : s.resetIn <;> simp

theorem engineStep_next (s : State) : ∃ t, engineStep s = .next t := by
  obtain hidle | ⟨h, hheld, hreset⟩ := s.idle_or_held
  · rw [engineStep_of_idle hidle]
    exact startOperation_next s
  · exact ⟨_, engineStep_of_held hheld hreset⟩

theorem step_of_noScript (henv : s.env = []) : step s = engineStep s := by simp only [step, henv]

theorem step_of_script {e : EnvEvent} {rest : List EnvEvent} (henv : s.env = e :: rest) :
    step s = environmentStep e { s with env := rest } := by simp only [step, henv]

end Turn

/-- Settles O6: on the engine's turn with nothing in progress the step is the arbiter's start. -/
theorem stepRunsTheDecodedInstruction : Obligations.StepRunsTheDecodedInstruction := by
  intro s q port bs i hturn hidle hfetch hdecode
  have hstart : engineStep q = exec i q := by rw [engineStep_of_idle hidle, startOperation_of_fetch hfetch hdecode]
  obtain ⟨henv, rfl⟩ | ⟨rest, henv, rfl⟩ := hturn
  · rw [step_of_noScript henv, hstart]
  · rw [step_of_script henv]
    exact hstart

/-- Settles O7, by the arbiter's cases in R184's order. -/
theorem arbiterPriority : Obligations.ArbiterPriority := by
  intro s henv hheld
  rw [step_of_noScript henv, engineStep_of_idle (.inl hheld)]
  exact ⟨startOperation_reset, startOperation_cmd, startOperation_tick,
    fun _ _ hreset hcmd hpend => startOperation_frame hreset hcmd hpend,
    fun _ _ hreset hcmd hpend => startOperation_flagged hreset hcmd hpend, startOperation_idle⟩

/-- Settles O8: the engine's turn and every other move answer a next state, but for the changed head of a FIFO that holds a
frame. -/
theorem noFatalState : Obligations.NoFatalState := by
  intro s
  match henv : s.env with
  | [] =>
    rw [step_of_noScript henv]
    exact .inl (engineStep_next s)
  | e :: rest =>
    rw [step_of_script henv]
    match e with
    | .engine => exact .inl (engineStep_next _)
    | .tickPulse => exact .inl ⟨_, rfl⟩
    | .frameArrives f => exact .inl ⟨_, rfl⟩
    | .commandWrite op arg => exact .inl ⟨_, rfl⟩
    | .statusRead addr => exact .inl ⟨_, rfl⟩
    | .assertReset => exact .inl ⟨_, rfl⟩
    | .deassertReset => exact .inl ⟨_, rfl⟩
    | .setPins c => exact .inl ⟨_, rfl⟩
    | .draw v => exact .inl ⟨_, rfl⟩
    | .txAnswer a => exact .inl ⟨_, rfl⟩
    | .headChanged bs =>
      match hfifo : s.rxFifo with
      | [] => exact .inl ⟨{ s with env := rest }, by simp only [environmentStep, State.headChanged, hfifo]⟩
      | f :: frames => exact .inr ⟨bs, rest, rfl, by simp, by simp only [environmentStep, State.headChanged]⟩

end Sys2Proof.Machine

/-! What one step of the machine can do: an idle turn, RESET, an operation that is started or goes on, or a move of an agent outside
the engine (60_exceptions.md R183 to R186, R196; 00_scope.md R3). -/

namespace Sys2Proof.Machine

/-! ### The operation of an engine's turn -/

/-- The engine's turn in `s` brings an operation of kind `k` to the end `e`, on the state `q` after the random source's draw: one
that the arbiter starts (R184), or the one in progress, with the frame it holds (R196). -/
inductive State.Runs (s : State) : State → OpKind → OpEnd → Prop where
  | cmd : s.held = none → s.cmdValid = true → Runs s s .cmd (commandEnd s.regs s.cmdOp s.cmdArg)
  | tick : s.held = none → s.tickPend ≠ 0 → Runs s s.afterTickDraw .tick (tickEnd s.params s.regs s.drawValue)
  | rx (f : RxFrame) (rest : List RxFrame) : s.held = none → s.rxFifo = f :: rest →
      Runs s s .rx (rxEnd s.params s.regs f)
  | resumed (h : Held) : s.held = some h → Runs s { s with held := none } h.kind (.finish h.regs (some h.frame))

/-- What an engine's turn can leave. -/
inductive State.Turns (s : State) : State → Prop where
  | idle : Turns s s
  | resets : s.resetIn = true → Turns s s.resetBlock
  | completes {q : State} {k : OpKind} {e : OpEnd} : s.resetIn = false → s.Runs q k e → Turns s (q.complete k e)

/-- What one move can leave: the engine's turn, or a move of an agent outside the engine. -/
inductive State.Moves (s : State) : State → Prop where
  | turn {t : State} : s.Turns t → Moves s t
  | tickPulse : Moves s s.tickPulse
  | frameArrives (f : RxFrame) : Moves s (s.frameArrives f)
  | commandWrite (op : BitVec 8) (arg : BitVec 32) : Moves s (s.commandWrite op arg)
  | assertsReset : Moves s (State.resetBlock { s with resetIn := true })
  | deassertsReset : Moves s { s with resetIn := false }
  /-- configuration levels, scripted answers and the transcript of the reads -/
  | outside (c : Pins) (d : List (BitVec 32)) (a : List TxAnswer) (h : List (BitVec 8 × BitVec 32)) :
      Moves s { s with pins := c, draws := d, txAnswers := a, hostReads := h }

section Inversion

variable {s t : State}

theorem State.Turns.of_startOperation (hheld : s.held = none ∨ s.resetIn = true) (h : startOperation s = .next t) :
    s.Turns t := by
  by_cases hreset : s.resetIn = true
  · rw [startOperation_reset hreset, exec_reset] at h
    cases h
    exact .resets hreset
  rw [Bool.not_eq_true] at hreset
  have hidle : s.held = none := hheld.resolve_right (by simp [hreset])
  by_cases hcmd : s.cmdValid = true
  · rw [startOperation_cmd hreset hcmd, exec_decodeCommand] at h
    cases h
    exact .completes hreset (.cmd hidle hcmd)
  rw [Bool.not_eq_true] at hcmd
  by_cases hpend : s.tickPend ≠ 0
  · rw [startOperation_tick hreset hcmd hpend, exec_decodeTick] at h
    cases h
    exact .completes hreset (.tick hidle hpend)
  rw [not_not] at hpend
  match hfifo : s.rxFifo with
  | [] =>
    rw [startOperation_idle hreset hcmd hpend hfifo] at h
    cases h
    exact .idle
  | f :: rest =>
    have hrx : startOperation s = .next (s.complete .rx (rxEnd s.params s.regs f)) := by
      by_cases herr : f.err = true
      · rw [startOperation_flagged hreset hcmd hpend hfifo herr, exec_rx_of_cons hfifo]
      · rw [startOperation_frame hreset hcmd hpend hfifo (Bool.not_eq_true _ ▸ herr), exec_decodeFrame, rxEnd, if_neg herr]
    rw [hrx] at h
    cases h
    exact .completes hreset (.rx f rest hidle hfifo)

theorem State.Turns.of_engineStep (h : engineStep s = .next t) : s.Turns t := by
  obtain hidle | ⟨held, hheld, hreset⟩ := s.idle_or_held
  · rw [engineStep_of_idle hidle] at h
    exact .of_startOperation hidle h
  · rw [engineStep_of_held hheld hreset] at h
    cases h
    exact .completes hreset (.resumed held hheld)

theorem State.Moves.of_environmentStep {e : EnvEvent} (h : environmentStep e s = .next t) : s.Moves t := by
  cases e
  case engine => exact .turn (.of_engineStep h)
  case tickPulse => cases h; exact .tickPulse
  case frameArrives f => cases h; exact .frameArrives f
  case commandWrite op arg => cases h; exact .commandWrite op arg
  case statusRead addr => cases h; exact .outside ..
  case assertReset => cases h; exact .assertsReset
  case deassertReset => cases h; exact .deassertsReset
  case setPins c => cases h; exact .outside ..
  case draw v => cases h; exact .outside ..
  case txAnswer a => cases h; exact .outside ..
  case headChanged bs =>
    simp only [environmentStep, State.headChanged] at h
    split at h
    · cases h; exact .turn .idle
    · cases h

/-- Every step that answers a next state is one of these moves, on the state with the script's next move taken off. -/
theorem State.Moves.of_step (h : step s = .next t) : State.Moves { s with env := s.env.tail } t := by
  match henv : s.env with
  | [] =>
    rw [step_of_noScript henv] at h
    have hself : { s with env := [].tail } = s := by rw [List.tail_nil, ← henv]
    rw [hself]
    exact .turn (.of_engineStep h)
  | e :: rest =>
    rw [step_of_script henv] at h
    exact .of_environmentStep h

end Inversion

/-! ### What the operation of a turn starts from -/

section Runs

variable {s q : State} {k : OpKind} {e : OpEnd}

theorem State.drawn_eq (s : State) : s.drawn = { s with draws := s.drawn.draws, drawIndex := s.drawn.drawIndex } := by
  unfold State.drawn
  split <;> rfl

theorem State.afterTickDraw_only_draws (s : State) :
    s.afterTickDraw = { s with draws := s.afterTickDraw.draws, drawIndex := s.afterTickDraw.drawIndex } := by
  obtain h | h := s.afterTickDraw_eq
  · rw [h]
  · rw [h]
    exact s.drawn_eq

/-- Before its end an operation changes nothing but the random source's queue; an operation in progress is taken up. -/
theorem State.Runs.start_eq (h : s.Runs q k e) :
    q = { s with held := none, draws := q.draws, drawIndex := q.drawIndex } := by
  cases h with
  | cmd hidle => rw [← hidle]
  | tick hidle =>
    rw [← hidle]
    exact s.afterTickDraw_only_draws
  | rx f rest hidle => rw [← hidle]
  | resumed => rfl

theorem State.Runs.held_eq (h : s.Runs q k e) : q.held = none := by rw [h.start_eq]
theorem State.Runs.regs_eq (h : s.Runs q k e) : q.regs = s.regs := by rw [h.start_eq]
theorem State.Runs.params_eq (h : s.Runs q k e) : q.params = s.params := by rw [h.start_eq]
theorem State.Runs.rxFifo_eq (h : s.Runs q k e) : q.rxFifo = s.rxFifo := by rw [h.start_eq]
theorem State.Runs.txStream_eq (h : s.Runs q k e) : q.txStream = s.txStream := by rw [h.start_eq]
theorem State.Runs.resetIn_eq (h : s.Runs q k e) : q.resetIn = s.resetIn := by rw [h.start_eq]
theorem State.Runs.tickPend_eq (h : s.Runs q k e) : q.tickPend = s.tickPend := by rw [h.start_eq]
theorem State.Runs.cmdValid_eq (h : s.Runs q k e) : q.cmdValid = s.cmdValid := by rw [h.start_eq]

end Runs

/-! ### What the end of an operation leaves -/

section Complete

variable (s : State) (k : OpKind) (e : OpEnd)

@[simp] theorem State.commitSent_params (r : Regs) (t : Bytes) : (s.commitSent k r t).params = s.params := by
  simp [State.commitSent]
@[simp] theorem State.commitSent_resetIn (r : Regs) (t : Bytes) : (s.commitSent k r t).resetIn = s.resetIn := by
  simp [State.commitSent]
@[simp] theorem State.commitSent_held (r : Regs) (t : Bytes) : (s.commitSent k r t).held = s.held := by
  simp [State.commitSent]
@[simp] theorem State.commitSent_txStream (r : Regs) (t : Bytes) :
    (s.commitSent k r t).txStream = s.txStream ++ [t] := by simp [State.commitSent]

@[simp] theorem State.complete_params : (s.complete k e).params = s.params := by
  obtain ⟨c, -, h⟩ | ⟨r, -, h⟩ | ⟨r, t, -, -, h⟩ | ⟨r, t, -, -, h⟩ | ⟨r, t, -, -, h⟩ := s.complete_cases k e <;>
    simp [h]

@[simp] theorem State.complete_resetIn : (s.complete k e).resetIn = s.resetIn := by
  obtain ⟨c, -, h⟩ | ⟨r, -, h⟩ | ⟨r, t, -, -, h⟩ | ⟨r, t, -, -, h⟩ | ⟨r, t, -, -, h⟩ := s.complete_cases k e <;>
    simp [h]

/-- A frame joins the transmit stream only if the operation called `Emit` on it. -/
theorem State.complete_txStream :
    (s.complete k e).txStream = s.txStream ∨
      ∃ r t, e = .finish r (some t) ∧ (s.complete k e).txStream = s.txStream ++ [t] := by
  obtain ⟨c, -, h⟩ | ⟨r, -, h⟩ | ⟨r, t, he, -, h⟩ | ⟨r, t, -, -, h⟩ | ⟨r, t, -, -, h⟩ := s.complete_cases k e
  · exact .inl (by simp [h])
  · exact .inl (by simp [h])
  · exact .inr ⟨r, t, he, by simp [h]⟩
  · exact .inl (by simp [h])
  · exact .inl (by simp [h])

/-- An operation is left in progress only if it called `Emit` and the transmit MAC has no answer, and then nothing else changed. -/
theorem State.complete_held :
    (s.complete k e).held = s.held ∨
      ∃ r t, e = .finish r (some t) ∧
        s.complete k e = { s with txAnswers := s.txAnswers.tail, held := some ⟨k, r, t⟩ } := by
  obtain ⟨c, -, h⟩ | ⟨r, -, h⟩ | ⟨r, t, -, -, h⟩ | ⟨r, t, -, -, h⟩ | ⟨r, t, he, -, h⟩ := s.complete_cases k e
  · exact .inl (by simp [h])
  · exact .inl (by simp [h])
  · exact .inl (by simp [h])
  · exact .inl (by simp [h])
  · exact .inr ⟨r, t, he, h⟩

end Complete

/-! ### What every step keeps -/

section Step

variable {s t : State}

theorem State.Moves.params_eq (h : s.Moves t) : t.params = s.params := by
  cases h with
  | turn h =>
    cases h with
    | idle => rfl
    | resets => rfl
    | completes _ hruns => rw [State.complete_params, hruns.params_eq]
  | tickPulse => exact s.tickPulse_params
  | frameArrives f => exact s.frameArrives_params f
  | commandWrite op arg => exact s.commandWrite_params op arg
  | assertsReset => rfl
  | deassertsReset => rfl
  | outside => rfl

/-- No step writes the OPEN parameters (R5). -/
theorem step_params (h : step s = .next t) : t.params = s.params := (State.Moves.of_step h).params_eq

/-- The transmit stream grows only by the frame of the operation that the turn ran. -/
theorem State.Moves.txStream_cases (h : s.Moves t) :
    t.txStream = s.txStream ∨ ∃ q k r f, s.Runs q k (.finish r (some f)) ∧ t.txStream = s.txStream ++ [f] := by
  cases h with
  | turn h =>
    cases h with
    | idle => exact .inl rfl
    | resets => exact .inl rfl
    | @completes q k e _ hruns =>
      rw [← hruns.txStream_eq]
      obtain hsame | ⟨r, f, rfl, hgrown⟩ := q.complete_txStream k e
      · exact .inl hsame
      · exact .inr ⟨q, k, r, f, hruns, hgrown⟩
  | tickPulse => exact .inl s.tickPulse_txStream
  | frameArrives f => exact .inl (s.frameArrives_txStream f)
  | commandWrite op arg => exact .inl (s.commandWrite_txStream op arg)
  | assertsReset => exact .inl rfl
  | deassertsReset => exact .inl rfl
  | outside => exact .inl rfl

end Step

/-- Settles O47: whatever the move, the stream is kept or one frame joins it. -/
theorem atMostOneFrameEachStep : Obligations.AtMostOneFrameEachStep := by
  intro s t hstep
  obtain hsame | ⟨_, _, _, f, _, hgrown⟩ := (State.Moves.of_step hstep).txStream_cases
  · exact .inl hsame
  · exact .inr ⟨f, hgrown⟩

end Sys2Proof.Machine

/-! What the handlers of the operations can leave: the register copies and the frames, with the conditions under which each arises,
and which row of `State.Emits` a frame belongs to (42_arp.md to 48_host_ops.md; 60_exceptions.md R185). -/

namespace Sys2Proof.Machine

/-! ### The leaves of the frame tree (R72) -/

/-- `e` is the end of one of the rows below RX that can do more than drop, or a drop; `n` bounds the bytes of the IPv4 datagram that
an echo request came in. -/
inductive OpEnd.OfFrameRow (p : Params) (r : Regs) (n : Nat) : OpEnd → Prop where
  | drop (c : StatusCode) : OfFrameRow p r n (.drop c)
  | arpRequest (ethSrc : Mac) (a : ArpAddrs) : OfFrameRow p r n (arpRequestEnd r ethSrc a)
  | arpReply (a : ArpAddrs) : OfFrameRow p r n (arpReplyEnd r a)
  | icmpEcho (ethSrc : Mac) (src : Ip) (code : Byte) (rest : Bytes) : 4 ≤ rest.length → rest.length + 24 ≤ n →
      OfFrameRow p r n (icmpEchoEnd p r ethSrc src code rest)
  | tcpInspect (h : TcpHeader) : OfFrameRow p r n (tcpInspectEnd r h)
  | dhcpOffer (y : Ip) (o : DhcpOpts) : r.dhcpEn = true → r.dstate = .selecting → OfFrameRow p r n (dhcpOfferEnd p r y o)
  | dhcpAckBind (y : Ip) (o : DhcpOpts) : r.dhcpEn = true → OfFrameRow p r n (dhcpAckBindEnd r y o)
  | dhcpAckExtend (y : Ip) (o : DhcpOpts) : r.dhcpEn = true → r.dstate.leased = true →
      OfFrameRow p r n (dhcpAckExtendEnd r y o)
  | dhcpNak : OfFrameRow p r n (dhcpNakEnd r)

section FrameTree

variable (p : Params) (r : Regs) {n : Nat}

theorem arpEnd_ofFrameRow (ethSrc : Mac) (pkt : Bytes) : (arpEnd r ethSrc pkt).OfFrameRow p r n := by
  match hentry : arpEntry pkt with
  | .error c =>
    rw [arpEnd_of_error hentry]
    exact .drop c
  | .ok (oper, a) =>
    rw [arpEnd_of_ok hentry]
    split
    · exact .arpRequest ethSrc a
    split
    · exact .arpReply a
    · exact .drop _

/-- A message that passes R115 has four bytes behind its checksum, and all of them came in the datagram. -/
theorem icmpEnd_ofFrameRow (ethSrc : Mac) (src : Ip) {m : Bytes} (hm : m.length + 20 ≤ n) :
    (icmpEnd p r ethSrc src m).OfFrameRow p r n := by
  by_cases hlen : m.length < 8
  · rw [icmpEnd_of_error (icmpEntry_short hlen)]
    exact .drop _
  rw [Nat.not_lt] at hlen
  by_cases hsum : csum [m.take 2, [0, 0], m.drop 4] = be16 m 2
  · rw [icmpEnd_of_checks hlen hsum]
    have hrest : (m.drop 4).length = m.length - 4 := List.length_drop
    split
    · exact .icmpEcho ethSrc src _ _ (by omega) (by omega)
    · exact .drop _
  · rw [icmpEnd_of_error (icmpEntry_badChecksum hlen hsum)]
    exact .drop _

theorem dhcpEntry_ok_enabled {p : Params} {r : Regs} {d : Bytes} {m : DhcpFields} (h : dhcpEntry p r d = .ok m) :
    r.dhcpEn = true := by
  by_contra hoff
  rw [dhcpEntry_disabled (Bool.not_eq_true _ ▸ hoff)] at h
  cases h

/-- R148's table: an OFFER row in SELECTING only, an extending row in the states that hold a lease. -/
theorem dhcpDispatchEnd_ofFrameRow (m : DhcpFields) (henabled : r.dhcpEn = true) :
    (dhcpDispatchEnd p r m).OfFrameRow p r n := by
  by_cases hselecting : r.dstate = .selecting
  · by_cases hmt : m.msgType = 2
    · rw [dhcpDispatchEnd_offer hselecting hmt]
      exact .dhcpOffer _ _ henabled hselecting
    · rw [dhcpDispatchEnd_other (.inr (.inr (.inr (.inl ⟨hselecting, hmt⟩))))]
      exact .drop _
  obtain hidle | hbinding | hextending := DState.cases_of_ne_selecting hselecting
  · rw [dhcpDispatchEnd_of_idle hidle]
    exact .drop _
  · rw [dhcpDispatchEnd_of_binding hbinding]
    split
    · exact .dhcpAckBind _ _ henabled
    split
    · exact .dhcpNak
    · exact .drop _
  · have hleased : r.dstate.leased = true := by obtain h | h := hextending <;> rw [h] <;> rfl
    rw [dhcpDispatchEnd_of_extending hextending]
    split
    · exact .dhcpAckExtend _ _ henabled hleased
    split
    · exact .dhcpNak
    · exact .drop _

theorem dhcpEnd_ofFrameRow (d : Bytes) : (dhcpEnd p r d).OfFrameRow p r n := by
  match hentry : dhcpEntry p r d with
  | .error c =>
    rw [dhcpEnd_of_error hentry]
    exact .drop c
  | .ok m =>
    rw [dhcpEnd_of_ok hentry]
    exact dhcpDispatchEnd_ofFrameRow p r m (dhcpEntry_ok_enabled hentry)

theorem udpEnd_ofFrameRow (src dst : Ip) (d : Bytes) : (udpEnd p r src dst d).OfFrameRow p r n := by
  match hentry : udpEntry src dst d with
  | .error c =>
    rw [udpEnd_of_error hentry]
    exact .drop c
  | .ok ⟨sport, dport, data⟩ =>
    rw [udpEnd_of_ok hentry]
    split
    · exact dhcpEnd_ofFrameRow p r data
    · exact .drop _

theorem tcpEnd_ofFrameRow (segment : Bytes) : (tcpEnd r segment).OfFrameRow p r n := by
  match hentry : tcpEntry segment with
  | .error c =>
    rw [tcpEnd_of_error hentry]
    exact .drop c
  | .ok h =>
    rw [tcpEnd_of_ok hentry]
    exact .tcpInspect h

/-- R101 to R105: a datagram that passes the entry checks is for this device, and its payload is shorter than it by at least the 20
bytes of a header. -/
theorem ipEntry_ok_fields {r : Regs} {d payload : Bytes} {src dst : Ip} {proto : Byte}
    (h : ipEntry r d = .ok ⟨src, dst, proto, payload⟩) : payload.length + 20 ≤ d.length ∧ acceptsDst r dst = true := by
  by_cases hlen : d.length < 20
  · rw [ipEntry_short hlen] at h
    cases h
  rw [ipEntry_of_length (Nat.not_lt.mp hlen) rfl, ipHeaderChecks] at h
  split at h
  · cases h
  split at h
  · cases h
  split at h
  · cases h
  split at h
  · cases h
  split at h
  case isTrue => cases h
  case isFalse hdst =>
    split at h
    · cases h
    · cases h
      rw [length_slice]
      exact ⟨by omega, by simpa using hdst⟩

theorem ipv4End_ofFrameRow (ethSrc : Mac) {d : Bytes} (hd : d.length ≤ n) :
    (ipv4End p r ethSrc d).OfFrameRow p r n := by
  match hentry : ipEntry r d with
  | .error c =>
    rw [ipv4End_of_error hentry]
    exact .drop c
  | .ok ⟨src, dst, proto, payload⟩ =>
    obtain ⟨hpayload, -⟩ := ipEntry_ok_fields hentry
    rw [ipv4End_of_ok hentry]
    split
    · exact icmpEnd_ofFrameRow p r ethSrc src (by omega)
    split
    · exact udpEnd_ofFrameRow p r src dst payload
    split
    · exact tcpEnd_ofFrameRow p r payload
    · exact .drop _

/-- Whatever the frame, RX ends as a leaf row does, on a datagram of at most `MTU` bytes (R87). -/
theorem rxEnd_ofFrameRow (f : RxFrame) : (rxEnd p r f).OfFrameRow p r Config.mtu := by
  rw [rxEnd]
  split
  · exact .drop _
  by_cases hmin : f.bytes.length < 14
  · rw [classify_runt hmin]
    exact .drop _
  by_cases hmax : 1514 < f.bytes.length
  · rw [classify_oversize hmax]
    exact .drop _
  rw [classify_of_length (Nat.not_lt.mp hmin) (Nat.not_lt.mp hmax)]
  split
  · exact .drop _
  split
  · exact arpEnd_ofFrameRow p r ..
  split
  · have hmtu : Config.mtu = 1500 := rfl
    exact ipv4End_ofFrameRow p r _ (by rw [List.length_drop]; omega)
  · exact .drop _

end FrameTree

/-! ### The register copies and frames of the handlers -/

/-- What a handler that starts from the registers `r` can finish with: the register copy, and the frame it called `Emit` on. -/
inductive Regs.Handled (p : Params) (r : Regs) : Regs → Option Bytes → Prop where
  /-- R160, R174, R175 without a client -/
  | unchanged : Handled p r r none
  /-- R117 -/
  | echoed (f : Bytes) : 42 ≤ f.length → f.length ≤ Config.maxFrameLen → Handled p r r (some f)
  /-- R95 -/
  | peerLearnt (ethSrc mac : Mac) (ip : Ip) :
      Handled p r { r with peerIp := ip, peerMac := mac, peerSt := .resolved } (some (arpReplyFrame r ethSrc mac ip))
  /-- R96 -/
  | peerAnswered (mac : Mac) : Handled p r { r with peerMac := mac, peerSt := .resolved } none
  /-- R176 -/
  | peerAsked (ip : Ip) (r' : Regs) : r' = { r with peerIp := ip, peerMac := 0, peerSt := .pending } →
      Handled p r r' (some (arpRequestFrame r' ip))
  /-- R131 -/
  | headerLatched (h : TcpHeader) :
      Handled p r
        { r with
          tcpSport := h.sport, tcpDport := h.dport, tcpSeq := h.seq, tcpAck := h.ack, tcpOffFlags := h.offFlags
          tcpCount := inc r.tcpCount } none
  /-- R153, R155, R163 to R166, R175 -/
  | leaseAbandoned (t : Half) : t = r.tmo ∨ t = 7 ∨ t = backoff p r.tmo → Handled p r { r.abandoned with tmo := t } none
  /-- R150 to R152 -/
  | leaseRecorded (lease : Word) (o : DhcpOpts) (y : Ip) : r.dhcpEn = true →
      y ≠ 0 ∨ (r.dstate.leased = true ∧ y = r.dhAddr) → Handled p r (r.recordLease lease o y) none
  /-- R149 -/
  | offerRequested (y server : Ip) (r' : Regs) : r.dhcpEn = true → r.dstate = .selecting →
      r' = { r with dhAddr := y, serverId := server, elapsed := 0, retry := 0, dstate := .requesting } →
      Handled p r r' (some (dhcpFrame p r' .reqSelect))
  /-- R161, R162 -/
  | exchangeStarted (x : Word) (d : DState) (form : DhcpForm) (r' : Regs) : r.dhcpEn = true → r.dstate.leased = false →
      d.leased = false → r' = { r with xid := x, elapsed := 0, retry := 0, dstate := d } →
      Handled p r r' (some (dhcpFrame p r' form))
  /-- the first line of R163 to R166 -/
  | aged : Handled p r r.age none
  /-- R164 -/
  | retried (r' : Regs) : r.retry.toNat < p.maxRetries.toNat →
      r' = { r with retry := r.retry + 1, tmo := backoff p r.tmo, elapsed := 0 } →
      Handled p r r' (some (dhcpFrame p r' .reqSelect))
  /-- R166, at T1 and T2 -/
  | leaseMoved (d : DState) (form : DhcpForm) (r' : Regs) : r.dstate.leased = true → d.leased = true →
      r' = { r.age with dstate := d } → Handled p r r' (some (dhcpFrame p r' form))

/-- The end of an operation leaves what `Regs.Handled` lists. -/
def OpEnd.HandledFrom (p : Params) (r : Regs) : OpEnd → Prop
  | .finish r' tx => Regs.Handled p r r' tx
  | .drop _ => True

section Handled

variable (p : Params) (r : Regs)

theorem arpRequestEnd_handled (ethSrc : Mac) (a : ArpAddrs) : (arpRequestEnd r ethSrc a).HandledFrom p r := by
  rw [arpRequestEnd]
  split
  · trivial
  · exact .peerLearnt ethSrc a.sha a.spa

theorem arpReplyEnd_handled (a : ArpAddrs) : (arpReplyEnd r a).HandledFrom p r := by
  rw [arpReplyEnd]
  split
  · exact .peerAnswered a.sha
  · trivial

theorem icmpEchoEnd_handled (ethSrc : Mac) (src : Ip) (code : Byte) {rest : Bytes} (hmin : 4 ≤ rest.length)
    (hmax : rest.length + 24 ≤ Config.mtu) : (icmpEchoEnd p r ethSrc src code rest).HandledFrom p r := by
  rw [icmpEchoEnd]
  split
  · trivial
  · refine .echoed _ ?_ ?_ <;>
      simp only [echoReply, ethFrame_length, ipDatagram_length, icmpMessage_length, Config.maxFrameLen] <;> omega

theorem dhcpOfferEnd_handled (y : Ip) (o : DhcpOpts) (henabled : r.dhcpEn = true) (hst : r.dstate = .selecting) :
    (dhcpOfferEnd p r y o).HandledFrom p r := by
  match hserver : o.server with
  | none =>
    rw [dhcpOfferEnd_noServer hserver]
    trivial
  | some server =>
    rw [dhcpOfferEnd_of_server hserver]
    split
    · trivial
    · exact .offerRequested y server _ henabled hst rfl

theorem dhcpAckBindEnd_noLease {r : Regs} {y : Ip} {o : DhcpOpts} (h : o.lease = none) :
    dhcpAckBindEnd r y o = .drop .dhcpMissingOption := by simp only [dhcpAckBindEnd, h]

theorem dhcpAckBindEnd_of_lease {r : Regs} {y : Ip} {o : DhcpOpts} {lease : Word} (h : o.lease = some lease) :
    dhcpAckBindEnd r y o = if y = 0 then .drop .dhcpBadAddr else .finish (r.recordLease lease o y) none := by
  simp only [dhcpAckBindEnd, h]

theorem dhcpAckExtendEnd_noLease {r : Regs} {y : Ip} {o : DhcpOpts} (h : o.lease = none) :
    dhcpAckExtendEnd r y o = .drop .dhcpMissingOption := by simp only [dhcpAckExtendEnd, h]

theorem dhcpAckExtendEnd_of_lease {r : Regs} {y : Ip} {o : DhcpOpts} {lease : Word} (h : o.lease = some lease) :
    dhcpAckExtendEnd r y o =
      if y ≠ r.dhAddr then .drop .dhcpAddrMismatch else .finish (r.recordLease lease o y) none := by
  simp only [dhcpAckExtendEnd, h]

theorem dhcpAckBindEnd_handled (y : Ip) (o : DhcpOpts) (henabled : r.dhcpEn = true) :
    (dhcpAckBindEnd r y o).HandledFrom p r := by
  match hlease : o.lease with
  | none =>
    rw [dhcpAckBindEnd_noLease hlease]
    trivial
  | some lease =>
    rw [dhcpAckBindEnd_of_lease hlease]
    split
    case isTrue => trivial
    case isFalse haddr => exact .leaseRecorded lease o y henabled (.inl haddr)

theorem dhcpAckExtendEnd_handled (y : Ip) (o : DhcpOpts) (henabled : r.dhcpEn = true) (hleased : r.dstate.leased = true) :
    (dhcpAckExtendEnd r y o).HandledFrom p r := by
  match hlease : o.lease with
  | none =>
    rw [dhcpAckExtendEnd_noLease hlease]
    trivial
  | some lease =>
    rw [dhcpAckExtendEnd_of_lease hlease]
    split
    case isTrue => trivial
    case isFalse haddr => exact .leaseRecorded lease o y henabled (.inr ⟨hleased, not_not.mp haddr⟩)

theorem OpEnd.OfFrameRow.handled {p : Params} {r : Regs} {e : OpEnd} (h : e.OfFrameRow p r Config.mtu) :
    e.HandledFrom p r := by
  cases h with
  | drop c => trivial
  | arpRequest ethSrc a => exact arpRequestEnd_handled p r ethSrc a
  | arpReply a => exact arpReplyEnd_handled p r a
  | icmpEcho ethSrc src code rest hmin hmax => exact icmpEchoEnd_handled p r ethSrc src code hmin hmax
  | tcpInspect h => exact .headerLatched h
  | dhcpOffer y o henabled hst => exact dhcpOfferEnd_handled p r y o henabled hst
  | dhcpAckBind y o henabled => exact dhcpAckBindEnd_handled p r y o henabled
  | dhcpAckExtend y o henabled hleased => exact dhcpAckExtendEnd_handled p r y o henabled hleased
  | dhcpNak => exact .leaseAbandoned r.tmo (.inl rfl)

theorem commandEnd_handled (op : BitVec 8) (arg : BitVec 32) : (commandEnd r op arg).HandledFrom p r := by
  obtain rfl | rfl | rfl | hreserved := cmdOp_cases op
  · exact .unchanged
  · show (cmdDhcpRestartEnd r).HandledFrom p r
    cases henabled : r.dhcpEn
    · rw [cmdDhcpRestartEnd_noClient henabled]
      exact .unchanged
    · rw [cmdDhcpRestartEnd_client henabled]
      exact .leaseAbandoned 7 (.inr (.inl rfl))
  · exact .peerAsked arg _ rfl
  · rw [commandEnd_reserved hreserved]
    trivial

theorem tickSelectingEnd_handled : (tickSelectingEnd p r).HandledFrom p r := by
  rw [tickSelectingEnd]
  split
  · exact .leaseAbandoned (backoff p r.tmo) (.inr (.inr rfl))
  · exact .aged

theorem tickRequestingEnd_handled : (tickRequestingEnd p r).HandledFrom p r := by
  rw [tickRequestingEnd]
  split
  · split
    case isTrue hretry => exact .retried _ hretry rfl
    case isFalse => exact .leaseAbandoned (backoff p r.tmo) (.inr (.inr rfl))
  · exact .aged

theorem tickRebootingEnd_handled : (tickRebootingEnd r).HandledFrom p r := by
  rw [tickRebootingEnd]
  split
  · exact .leaseAbandoned r.tmo (.inl rfl)
  · exact .aged

theorem tickLeaseEnd_handled (hleased : r.dstate.leased = true) : (tickLeaseEnd p r).HandledFrom p r := by
  rw [tickLeaseEnd]
  split
  · exact .leaseAbandoned r.tmo (.inl rfl)
  split
  · exact .leaseMoved .rebinding .reqRebind _ hleased rfl rfl
  split
  · exact .leaseMoved .renewing .reqRenew _ hleased rfl rfl
  · exact .aged

theorem tickEnd_handled (x : Word) : (tickEnd p r x).HandledFrom p r := by
  rw [tickEnd]
  split
  case isTrue => exact .unchanged
  case isFalse hon =>
    have henabled : r.dhcpEn = true := Bool.not_eq_false _ ▸ hon
    split
    case h_1 hst => exact .exchangeStarted x .selecting .discover _ henabled (by rw [hst]; rfl) rfl rfl
    case h_2 hst => exact .exchangeStarted x .rebooting .reqReboot _ henabled (by rw [hst]; rfl) rfl rfl
    case h_3 => exact tickSelectingEnd_handled p r
    case h_4 => exact tickRequestingEnd_handled p r
    case h_5 => exact tickRebootingEnd_handled p r
    case h_6 hst => exact tickLeaseEnd_handled p r (by rw [hst]; rfl)
    case h_7 hst => exact tickLeaseEnd_handled p r (by rw [hst]; rfl)
    case h_8 hst => exact tickLeaseEnd_handled p r (by rw [hst]; rfl)

end Handled

/-- What the operation of a turn finishes with: a handler's copy and frame, or those that an operation in progress holds. -/
theorem State.Runs.finishes {s q : State} {k : OpKind} {r' : Regs} {tx : Option Bytes}
    (h : s.Runs q k (.finish r' tx)) :
    Regs.Handled s.params s.regs r' tx ∨ ∃ held, s.held = some held ∧ r' = held.regs ∧ tx = some held.frame := by
  generalize he : OpEnd.finish r' tx = e at h
  have hhandled (hrow : e.HandledFrom s.params s.regs) : Regs.Handled s.params s.regs r' tx := by
    rw [← he] at hrow
    exact hrow
  cases h with
  | cmd => exact .inl (hhandled (commandEnd_handled ..))
  | tick => exact .inl (hhandled (tickEnd_handled ..))
  | rx f rest => exact .inl (hhandled (rxEnd_ofFrameRow ..).handled)
  | resumed held hheld =>
    cases he
    exact .inr ⟨held, hheld, rfl, rfl⟩

/-- Every frame a handler builds is between an ARP frame and `MAX_FRAME_LEN` long (R98, R99, R112, R172). -/
theorem Regs.Handled.frame_length {p : Params} {r r' : Regs} {f : Bytes} (h : Regs.Handled p r r' (some f)) :
    42 ≤ f.length ∧ f.length ≤ Config.maxFrameLen := by
  have hdhcp (r : Regs) (form : DhcpForm) :
      42 ≤ (dhcpFrame p r form).length ∧ (dhcpFrame p r form).length ≤ Config.maxFrameLen := by
    rw [dhcpFrame_length]
    cases form <;> decide
  cases h with
  | echoed f hmin hmax => exact ⟨hmin, hmax⟩
  | peerLearnt => rw [arpReplyFrame_length]; decide
  | peerAsked => rw [arpRequestFrame_length]; decide
  | offerRequested => exact hdhcp ..
  | exchangeStarted => exact hdhcp ..
  | retried => exact hdhcp ..
  | leaseMoved => exact hdhcp ..

/-! ### The rows that emit -/

/-- The frame that an operation hands to the transmit MAC at its end, if any, is one that a row of `State.Emits` emits. -/
def State.EmitsAtEnd (s q : State) (k : OpKind) : OpEnd → Prop
  | .finish r (some f) => ∃ i, s.Emits i q k r f
  | .finish _ none => True
  | .drop _ => True

section Emits

variable (s : State)

theorem arpRequestEnd_emits (ethSrc : Mac) (a : ArpAddrs) : s.EmitsAtEnd s .rx (arpRequestEnd s.regs ethSrc a) := by
  rw [arpRequestEnd]
  split
  case isTrue => trivial
  case isFalse h =>
    obtain ⟨haddr, htpa⟩ := not_or.mp h
    exact ⟨_, .arpRequest ethSrc a _ haddr (not_not.mp htpa) rfl⟩

theorem arpReplyEnd_emits (a : ArpAddrs) : s.EmitsAtEnd s .rx (arpReplyEnd s.regs a) := by
  rw [arpReplyEnd]
  split <;> trivial

theorem icmpEchoEnd_emits (ethSrc : Mac) (src : Ip) (code : Byte) (rest : Bytes) :
    s.EmitsAtEnd s .rx (icmpEchoEnd s.params s.regs ethSrc src code rest) := by
  rw [icmpEchoEnd]
  split
  case isTrue => trivial
  case isFalse haddr => exact ⟨_, .icmpEcho ethSrc src code rest haddr⟩

theorem dhcpOfferEnd_emits (y : Ip) (o : DhcpOpts) : s.EmitsAtEnd s .rx (dhcpOfferEnd s.params s.regs y o) := by
  match hserver : o.server with
  | none =>
    rw [dhcpOfferEnd_noServer hserver]
    trivial
  | some server =>
    rw [dhcpOfferEnd_of_server hserver]
    split
    case isTrue => trivial
    case isFalse haddr => exact ⟨_, .dhcpOffer y o server _ hserver haddr rfl⟩

theorem dhcpAckBindEnd_emits (y : Ip) (o : DhcpOpts) : s.EmitsAtEnd s .rx (dhcpAckBindEnd s.regs y o) := by
  match hlease : o.lease with
  | none =>
    rw [dhcpAckBindEnd_noLease hlease]
    trivial
  | some lease =>
    rw [dhcpAckBindEnd_of_lease hlease]
    split <;> trivial

theorem dhcpAckExtendEnd_emits (y : Ip) (o : DhcpOpts) : s.EmitsAtEnd s .rx (dhcpAckExtendEnd s.regs y o) := by
  match hlease : o.lease with
  | none =>
    rw [dhcpAckExtendEnd_noLease hlease]
    trivial
  | some lease =>
    rw [dhcpAckExtendEnd_of_lease hlease]
    split <;> trivial

variable {s} in
theorem OpEnd.OfFrameRow.emits {n : Nat} {e : OpEnd} (h : e.OfFrameRow s.params s.regs n) : s.EmitsAtEnd s .rx e := by
  cases h with
  | drop c => trivial
  | arpRequest ethSrc a => exact arpRequestEnd_emits s ethSrc a
  | arpReply a => exact arpReplyEnd_emits s a
  | icmpEcho ethSrc src code rest => exact icmpEchoEnd_emits s ethSrc src code rest
  | tcpInspect h => trivial
  | dhcpOffer y o => exact dhcpOfferEnd_emits s y o
  | dhcpAckBind y o => exact dhcpAckBindEnd_emits s y o
  | dhcpAckExtend y o => exact dhcpAckExtendEnd_emits s y o
  | dhcpNak => trivial

theorem cmdDhcpRestartEnd_emits : s.EmitsAtEnd s .cmd (cmdDhcpRestartEnd s.regs) := by
  rw [cmdDhcpRestartEnd]
  split <;> trivial

theorem cmdArpResolveEnd_emits (ip : Ip) : s.EmitsAtEnd s .cmd (cmdArpResolveEnd s.regs ip) :=
  ⟨_, .cmdArpResolve ip _ rfl⟩

theorem commandEnd_emits (op : BitVec 8) (arg : BitVec 32) : s.EmitsAtEnd s .cmd (commandEnd s.regs op arg) := by
  obtain rfl | rfl | rfl | hreserved := cmdOp_cases op
  · trivial
  · exact cmdDhcpRestartEnd_emits s
  · exact cmdArpResolveEnd_emits s arg
  · rw [commandEnd_reserved hreserved]
    trivial

theorem tickInitEnd_emits : s.EmitsAtEnd s.drawn .tick (tickInitEnd s.params s.regs s.drawValue) :=
  ⟨_, .tickInit s.drawValue _ _ s.drawGives_drawValue rfl⟩

theorem tickInitRebootEnd_emits : s.EmitsAtEnd s.drawn .tick (tickInitRebootEnd s.params s.regs s.drawValue) :=
  ⟨_, .tickInitReboot s.drawValue _ _ s.drawGives_drawValue rfl⟩

theorem tickSelectingEnd_emits : s.EmitsAtEnd s .tick (tickSelectingEnd s.params s.regs) := by
  rw [tickSelectingEnd]
  split <;> trivial

theorem Regs.age_elapsed_toNat (r : Regs) : r.age.elapsed.toNat = min (r.elapsed.toNat + 1) 0xFFFFFFFF :=
  satInc_toNat r.elapsed

theorem tickRequestingEnd_emits : s.EmitsAtEnd s .tick (tickRequestingEnd s.params s.regs) := by
  rw [tickRequestingEnd]
  split
  case isTrue hcount =>
    rw [Regs.age_elapsed_toNat] at hcount
    split
    case isTrue hretry => exact ⟨_, .tickRequesting _ hcount hretry rfl⟩
    case isFalse => trivial
  case isFalse => trivial

theorem tickRebootingEnd_emits : s.EmitsAtEnd s .tick (tickRebootingEnd s.regs) := by
  rw [tickRebootingEnd]
  split <;> trivial

theorem tickLeaseEnd_emits : s.EmitsAtEnd s .tick (tickLeaseEnd s.params s.regs) := by
  rw [tickLeaseEnd]
  split
  case isTrue => trivial
  case isFalse hlease =>
    rw [Nat.not_le] at hlease
    split
    case isTrue h => exact ⟨_, .tickRebind .tickBound _ _ (.inl rfl) s.regs.age_elapsed_toNat hlease h.1 h.2 rfl⟩
    case isFalse hnot2 =>
      split
      case isTrue h =>
        have hbound : s.regs.dstate = .bound := h.2
        have ht2 : s.regs.age.elapsed.toNat < s.regs.t2.toNat :=
          Nat.not_le.mp fun ht2 => hnot2 ⟨ht2, by rw [Regs.age_dstate, hbound]; decide⟩
        exact ⟨_, .tickRenew .tickBound _ _ (.inl rfl) s.regs.age_elapsed_toNat hlease ht2 h.1 hbound rfl⟩
      case isFalse => trivial

theorem tickEnd_emits : s.EmitsAtEnd s.afterTickDraw .tick (tickEnd s.params s.regs s.drawValue) := by
  rw [tickEnd, State.afterTickDraw]
  cases henabled : s.regs.dhcpEn
  case false => trivial
  case true =>
    cases s.regs.dstate
    case init => exact tickInitEnd_emits s
    case initReboot => exact tickInitRebootEnd_emits s
    case selecting => exact tickSelectingEnd_emits s
    case requesting => exact tickRequestingEnd_emits s
    case rebooting => exact tickRebootingEnd_emits s
    case bound => exact tickLeaseEnd_emits s
    case renewing => exact tickLeaseEnd_emits s
    case rebinding => exact tickLeaseEnd_emits s

end Emits

end Sys2Proof.Machine

/-! How operations end: what a drop, a commit and a wait leave, for every row that emits and for the operation in progress
(60_exceptions.md R185 to R188, R192, R196). -/

namespace Sys2Proof.Machine

/-! ### The registers an operation leaves -/

/-- The registers `r` with the counters and the status that the end of an operation writes (R185, R186). -/
def Regs.withCounts (r : Regs) (rx drop tx : Half) (c : StatusCode) : Regs :=
  { r with rxCount := rx, dropCount := drop, txCount := tx, lastStatus := c.code }

section Ends

variable (s : State)

theorem State.close_regs_withCounts (k : OpKind) (c : StatusCode) :
    ∃ rx drop, (s.close k c).regs = s.regs.withCounts rx drop s.regs.txCount c :=
  ⟨_, _, s.close_regs k c⟩

/-- An operation leaves the registers as they were, or it ended, on the committed registers or on its own copy. -/
theorem State.complete_regs (k : OpKind) (e : OpEnd) :
    (s.complete k e).regs = s.regs ∨
      ∃ r rx drop tx c, (s.complete k e).regs = Regs.withCounts r rx drop tx c ∧ (r = s.regs ∨ ∃ f, e = .finish r f) := by
  obtain ⟨c, -, h⟩ | ⟨r, he, h⟩ | ⟨r, t, he, -, h⟩ | ⟨r, t, -, -, h⟩ | ⟨r, t, -, -, h⟩ := s.complete_cases k e
  · obtain ⟨rx, drop, hregs⟩ := s.close_regs_withCounts k c
    exact .inr ⟨s.regs, rx, drop, _, c, by rw [h, hregs], .inl rfl⟩
  · obtain ⟨rx, drop, hregs⟩ := State.close_regs_withCounts { s with regs := r } k .ok
    exact .inr ⟨r, rx, drop, _, .ok, by rw [h, hregs], .inr ⟨none, he⟩⟩
  · obtain ⟨rx, drop, hregs⟩ := State.close_regs_withCounts
      { s with
        regs := { r with txCount := inc r.txCount }, txAnswers := s.txAnswers.tail, txStream := s.txStream ++ [t] } k .ok
    exact .inr ⟨r, rx, drop, inc r.txCount, .ok, by rw [h]; exact hregs, .inr ⟨some t, he⟩⟩
  · obtain ⟨rx, drop, hregs⟩ := State.close_regs_withCounts { s with txAnswers := s.txAnswers.tail } k .ifTxError
    exact .inr ⟨s.regs, rx, drop, _, .ifTxError, by rw [h, hregs], .inl rfl⟩
  · exact .inl (by rw [h])

/-- The end of an RX operation reaches neither the command register, nor the ticks, nor the inputs. -/
theorem State.complete_rx_inputs (e : OpEnd) :
    (s.complete .rx e).cmdValid = s.cmdValid ∧ (s.complete .rx e).cmdOp = s.cmdOp ∧
    (s.complete .rx e).cmdArg = s.cmdArg ∧ (s.complete .rx e).tickPend = s.tickPend ∧
    (s.complete .rx e).pins = s.pins ∧ (s.complete .rx e).resetIn = s.resetIn := by
  obtain ⟨c, -, h⟩ | ⟨r, -, h⟩ | ⟨r, t, -, -, h⟩ | ⟨r, t, -, -, h⟩ | ⟨r, t, -, -, h⟩ := s.complete_cases .rx e <;>
    simp [h, State.commitSent]

end Ends

/-- No handler's register copy differs in the configuration (R192). -/
theorem Regs.Handled.config_eq {p : Params} {r r' : Regs} {tx : Option Bytes} (h : Regs.Handled p r r' tx) :
    r'.myMac = r.myMac ∧ r'.netmask = r.netmask ∧ r'.dhcpEn = r.dhcpEn := by
  cases h <;> (subst_vars; exact ⟨rfl, rfl, rfl⟩)

/-- Settles O48: RX ends as a leaf row does, whose register copy keeps the configuration, and its completion writes reach no input
but the FIFO. -/
theorem framesReachNoHostFunction : Obligations.FramesReachNoHostFunction := by
  intro s t hexec
  match hfifo : s.rxFifo with
  | [] =>
    simp only [exec, execRx, hfifo] at hexec
    cases hexec
    exact ⟨rfl, rfl, rfl, rfl, rfl, rfl, rfl, rfl, rfl⟩
  | f :: rest =>
    rw [exec_rx_of_cons hfifo] at hexec
    cases hexec
    obtain ⟨hvalid, hop, harg, hpend, hpins, hreset⟩ := s.complete_rx_inputs (rxEnd s.params s.regs f)
    refine ⟨hvalid, hop, harg, hpend, hpins, hreset, ?config⟩
    obtain hsame | ⟨r, rx, drop, tx, c, hregs, rfl | ⟨f', hend⟩⟩ := s.complete_regs .rx (rxEnd s.params s.regs f)
    · rw [hsame]
      exact ⟨rfl, rfl, rfl⟩
    · rw [hregs]
      exact ⟨rfl, rfl, rfl⟩
    · have hhandled := (rxEnd_ofFrameRow s.params s.regs f).handled
      rw [hend] at hhandled
      rw [hregs]
      exact hhandled.config_eq

/-! ### A frame the transmit MAC refuses (R187) -/

section Refused

variable {s : State}

theorem State.close_tick_drop (h : s.tickPend ≠ 0) (c : StatusCode) :
    s.close .tick c = { s with tickPend := s.tickPend - 1, regs := { s.regs with lastStatus := c.code } } := by
  simp only [State.close, if_neg h]

variable (hmac : s.macRefuses) (r : Regs) (f : Bytes)
include hmac

theorem State.offer_rx_refused :
    s.offer .rx r f = State.rxDropped { s with txAnswers := s.txAnswers.tail } 0x71 := by
  rw [State.offer_of_refuses s _ r f hmac, State.close_rx_drop _ _ (by decide), StatusCode.code]

theorem State.offer_cmd_refused :
    s.offer .cmd r f = State.cmdDone { s with txAnswers := s.txAnswers.tail } s.regs 0x71 :=
  State.offer_of_refuses s _ r f hmac

theorem State.offer_tick_refused (hpend : s.tickPend ≠ 0) :
    s.offer .tick r f =
      { s with
        txAnswers := s.txAnswers.tail, tickPend := s.tickPend - 1, regs := { s.regs with lastStatus := 0x71 } } := by
  rw [State.offer_of_refuses s _ r f hmac]
  exact State.close_tick_drop (s := { s with txAnswers := s.txAnswers.tail }) hpend .ifTxError

end Refused

/-! ### What an emitting row starts from -/

section Emits

variable {s q : State} {i : Instr} {k : OpKind} {r : Regs} {f : Bytes} (h : s.Emits i q k r f)
include h

theorem State.Emits.regs_eq : q.regs = s.regs := by rw [h.only_draws]
theorem State.Emits.txAnswers_eq : q.txAnswers = s.txAnswers := by rw [h.only_draws]
theorem State.Emits.tickPend_eq : q.tickPend = s.tickPend := by rw [h.only_draws]

theorem State.Emits.macAccepts (hmac : s.macAccepts) : q.macAccepts := by rwa [State.macAccepts, h.txAnswers_eq]
theorem State.Emits.macRefuses (hmac : s.macRefuses) : q.macRefuses := by rwa [State.macRefuses, h.txAnswers_eq]
theorem State.Emits.macWaits (hmac : s.macWaits) : q.macWaits := by rwa [State.macWaits, h.txAnswers_eq]

theorem State.Emits.exec_offer : exec i s = .next (q.offer k r f) := by
  rw [h.exec_eq, State.complete_finish_some]

end Emits

/-- Settles O43: an emitting row offers its frame on the state after its draw, and a refused offer is only the completion writes. -/
theorem transmitErrorIsADrop : Obligations.TransmitErrorIsADrop := by
  intro s q i k r f hemits hrefuses
  have hmac := hemits.macRefuses hrefuses
  rw [hemits.exec_offer, ← hemits.txAnswers_eq, ← hemits.regs_eq, ← hemits.tickPend_eq]
  refine ⟨?rx, ?cmd, ?tick⟩
  case rx => rintro rfl; rw [State.offer_rx_refused hmac]
  case cmd => rintro rfl; rw [State.offer_cmd_refused hmac]
  case tick => rintro rfl hpend; rw [State.offer_tick_refused hmac r f hpend]

/-- Settles O45: the operation in progress offers its frame again, and the three answers are those of `State.offer`. -/
theorem heldOperationResumes : Obligations.HeldOperationResumes := by
  rintro s q ⟨k, r, f⟩ henv hreset hheld hq
  have hstep : step s = .next (q.offer k r f) := by
    rw [step_of_noScript henv, engineStep_of_held hheld hreset, State.resume, hq]
  have hanswers : q.txAnswers = s.txAnswers := by rw [hq]
  have hregs : q.regs = s.regs := by rw [hq]
  have hpend : q.tickPend = s.tickPend := by rw [hq]
  have haccepts (h : s.macAccepts) : q.macAccepts := by rwa [State.macAccepts, hanswers]
  have hrefuses (h : s.macRefuses) : q.macRefuses := by rwa [State.macRefuses, hanswers]
  have hwaits (h : s.macWaits) : q.macWaits := by rwa [State.macWaits, hanswers]
  rw [hstep, ← hanswers, ← hregs, ← hpend]
  refine ⟨?acceptRx, ?acceptCmd, ?acceptTick, ?refuseRx, ?refuseCmd, ?refuseTick, fun hmac => ?waits⟩
  case acceptRx => rintro hmac rfl; rw [State.offer_of_accepts q _ r f (haccepts hmac), State.commitSent_rx]
  case acceptCmd => rintro hmac rfl; rw [State.offer_of_accepts q _ r f (haccepts hmac), State.commitSent_cmd]
  case acceptTick =>
    rintro hmac rfl hpend
    rw [State.offer_of_accepts q _ r f (haccepts hmac), State.commitSent_tick q r f hpend]
  case refuseRx => rintro hmac rfl; rw [State.offer_rx_refused (hrefuses hmac)]
  case refuseCmd => rintro hmac rfl; rw [State.offer_cmd_refused (hrefuses hmac)]
  case refuseTick => rintro hmac rfl hpend; rw [State.offer_tick_refused (hrefuses hmac) r f hpend]
  case waits => rw [State.offer_of_waits q k r f (hwaits hmac), hq, ← hheld]

/-! ### An operation that waits (R196) -/

/-- Every instruction but RESET and READ leaves the state, or brings an operation to an end whose frame, if any, is that of an
emitting row. -/
theorem exec_emits (i : Instr) (s : State) (hreset : i ≠ .reset) (hread : ∀ a, i ≠ .read a) :
    exec i s = .next s ∨
      ∃ q k e, exec i s = .next (q.complete k e) ∧ (q = s ∨ q = s.drawn) ∧ s.EmitsAtEnd q k e := by
  cases i
  case reset => exact absurd rfl hreset
  case read a => exact absurd rfl (hread a)
  case rx =>
    match hfifo : s.rxFifo with
    | [] => exact .inl (by simp only [exec, execRx, hfifo])
    | f :: rest => exact .inr ⟨_, _, _, exec_rx_of_cons hfifo, .inl rfl, (rxEnd_ofFrameRow ..).emits⟩
  case cmd => exact .inr ⟨_, _, _, rfl, .inl rfl, commandEnd_emits ..⟩
  case tick => exact .inr ⟨_, _, _, exec_tick s, s.afterTickDraw_eq, tickEnd_emits s⟩
  case cmdDhcpRestart => exact .inr ⟨_, _, _, rfl, .inl rfl, cmdDhcpRestartEnd_emits s⟩
  case cmdArpResolve ip => exact .inr ⟨_, _, _, rfl, .inl rfl, cmdArpResolveEnd_emits s ip⟩
  case tickInit => exact .inr ⟨_, _, _, rfl, .inr rfl, tickInitEnd_emits s⟩
  case tickInitReboot => exact .inr ⟨_, _, _, rfl, .inr rfl, tickInitRebootEnd_emits s⟩
  case tickSelecting => exact .inr ⟨_, _, _, rfl, .inl rfl, tickSelectingEnd_emits s⟩
  case tickRequesting => exact .inr ⟨_, _, _, rfl, .inl rfl, tickRequestingEnd_emits s⟩
  case tickRebooting => exact .inr ⟨_, _, _, rfl, .inl rfl, tickRebootingEnd_emits s⟩
  case tickBound => exact .inr ⟨_, _, _, rfl, .inl rfl, tickLeaseEnd_emits s⟩
  case tickRenewing => exact .inr ⟨_, _, _, rfl, .inl rfl, tickLeaseEnd_emits s⟩
  case tickRebinding => exact .inr ⟨_, _, _, rfl, .inl rfl, tickLeaseEnd_emits s⟩
  case ethArp ethSrc pkt =>
    exact .inr ⟨_, _, _, rfl, .inl rfl, (arpEnd_ofFrameRow s.params s.regs (n := 0) ethSrc pkt).emits⟩
  case ethIpv4 ethSrc d => exact .inr ⟨_, _, _, rfl, .inl rfl, (ipv4End_ofFrameRow _ _ ethSrc (le_refl d.length)).emits⟩
  case ipIcmp ethSrc src dst m =>
    exact .inr ⟨_, _, _, rfl, .inl rfl, (icmpEnd_ofFrameRow _ _ ethSrc src (le_refl (m.length + 20))).emits⟩
  case ipUdp src dst d =>
    exact .inr ⟨_, _, _, rfl, .inl rfl, (udpEnd_ofFrameRow s.params s.regs (n := 0) src dst d).emits⟩
  case ipTcp seg => exact .inr ⟨_, _, _, rfl, .inl rfl, (tcpEnd_ofFrameRow s.params s.regs (n := 0) seg).emits⟩
  case udpDhcp d => exact .inr ⟨_, _, _, rfl, .inl rfl, (dhcpEnd_ofFrameRow s.params s.regs (n := 0) d).emits⟩
  case arpRequest ethSrc a => exact .inr ⟨_, _, _, rfl, .inl rfl, arpRequestEnd_emits s ethSrc a⟩
  case arpReply a => exact .inr ⟨_, _, _, rfl, .inl rfl, arpReplyEnd_emits s a⟩
  case icmpEcho ethSrc src code rest => exact .inr ⟨_, _, _, rfl, .inl rfl, icmpEchoEnd_emits s ethSrc src code rest⟩
  case dhcpOffer y o => exact .inr ⟨_, _, _, rfl, .inl rfl, dhcpOfferEnd_emits s y o⟩
  case dhcpAckBind y o => exact .inr ⟨_, _, _, rfl, .inl rfl, dhcpAckBindEnd_emits s y o⟩
  case dhcpAckExtend y o => exact .inr ⟨_, _, _, rfl, .inl rfl, dhcpAckExtendEnd_emits s y o⟩
  -- the rows that only drop, finish on the registers as they are, or latch a header
  all_goals exact .inr ⟨_, _, _, rfl, .inl rfl, trivial⟩

theorem State.image_eq_of_draws (s : State) (d : List (BitVec 32)) (n : Nat) (a : List TxAnswer) (h : Option Held)
    (addr : BitVec 8) :
    State.image { s with draws := d, drawIndex := n, txAnswers := a, held := h } addr = s.image addr := rfl

/-- An operation that is left waiting changed nothing that can be read, and holds what an emitting row would commit. -/
theorem exec_waits {i : Instr} {s t : State} (hidle : s.held = none) (hexec : exec i s = .next t) (hheld : t.held ≠ none) :
    ∃ j q k r f, s.Emits j q k r f ∧ t = { q with txAnswers := s.txAnswers.tail, held := some ⟨k, r, f⟩ } := by
  have hreset : i ≠ .reset := by
    rintro rfl
    rw [exec_reset] at hexec
    cases hexec
    exact hheld rfl
  have hread (a : BitVec 8) : i ≠ .read a := by
    rintro rfl
    cases hexec
    exact hheld hidle
  obtain hsame | ⟨q, k, e, hends, hq, hemits⟩ := exec_emits i s hreset hread
  · rw [hsame] at hexec
    cases hexec
    exact absurd hidle hheld
  · rw [hends] at hexec
    cases hexec
    have hqheld : q.held = none := by obtain rfl | rfl := hq <;> simp [hidle]
    obtain hsame | ⟨r, f, rfl, hwaits⟩ := q.complete_held k e
    · exact absurd (hsame.trans hqheld) hheld
    · obtain ⟨j, hj⟩ := hemits
      exact ⟨j, q, k, r, f, hj, by rw [hwaits, hj.txAnswers_eq]⟩

/-- Settles O44: the end that waits is that of an emitting row, which has changed nothing but the random source's queue; and an
emitting row hands its copy and frame to the transmit MAC whatever it answers. -/
theorem nothingShowsBeforeTheCommit : Obligations.NothingShowsBeforeTheCommit := by
  refine ⟨fun i s t hidle hexec hheld => ?waiting, fun s q i k r f hemits => ?emitting⟩
  case waiting =>
    obtain ⟨j, q, k, r, f, hemits, rfl⟩ := exec_waits hidle hexec hheld
    have hq := hemits.only_draws
    refine ⟨?regs, ?fifo, ?stream, ?pend, ?valid, fun a => ?image, j, q, k, r, f, hemits, rfl⟩
    case image => rw [hq]; exact s.image_eq_of_draws ..
    all_goals rw [hq]
  case emitting =>
    rw [hemits.exec_offer]
    refine ⟨fun hmac => ?waits, ?rx, ?cmd, ?tick⟩
    case waits => rw [State.offer_of_waits q k r f (hemits.macWaits hmac), hemits.txAnswers_eq]
    case rx => rintro hmac rfl; rw [State.offer_of_accepts q _ r f (hemits.macAccepts hmac), State.commitSent_rx]
    case cmd => rintro hmac rfl; rw [State.offer_of_accepts q _ r f (hemits.macAccepts hmac), State.commitSent_cmd]
    case tick =>
      rintro hmac rfl hpend
      rw [State.offer_of_accepts q _ r f (hemits.macAccepts hmac),
        State.commitSent_tick q r f (hemits.tickPend_eq ▸ hpend)]

/-! ### Precise drops (R186) -/

/-- A drop's completion writes, by the kind of the operation (R186). -/
theorem State.close_drop_cases (s : State) (k : OpKind) {c : StatusCode} (hc : c ≠ .ok) :
    s.close k c = s.rxDropped c.code ∨ s.close k c = s.cmdDone s.regs c.code ∨
      (s.close k c =
          { s with tickPend := (s.close k c).tickPend, regs := { s.regs with lastStatus := c.code } } ∧
        (s.tickPend ≠ 0 → (s.close k c).tickPend = s.tickPend - 1)) := by
  cases k
  case rx => exact .inl (s.close_rx_drop c hc)
  case cmd => exact .inr (.inl rfl)
  case tick => exact .inr (.inr ⟨rfl, fun hpend => if_neg hpend⟩)

theorem StatusCode.code_eq_zero_iff (c : StatusCode) : c.code = 0 ↔ c = .ok := by cases c <;> decide

/-- An end that leaves a nonzero status is a drop, by the handler or by the transmit MAC, or the operation waits. -/
theorem State.complete_of_status_ne_zero {s : State} {k : OpKind} {e : OpEnd}
    (h : (s.complete k e).regs.lastStatus ≠ 0) :
    (∃ a c, c ≠ .ok ∧ s.complete k e = State.close { s with txAnswers := a } k c) ∨
      ∃ a held, s.complete k e = { s with txAnswers := a, held := some held } := by
  obtain ⟨c, -, hends⟩ | ⟨r, -, hends⟩ | ⟨r, t, -, -, hends⟩ | ⟨r, t, -, -, hends⟩ | ⟨r, t, -, -, hends⟩ :=
    s.complete_cases k e
  · rw [hends, State.close_lastStatus, ne_eq, StatusCode.code_eq_zero_iff] at h
    exact .inl ⟨s.txAnswers, c, h, hends⟩
  · rw [hends, State.close_lastStatus] at h
    exact absurd rfl h
  · rw [hends, State.commitSent, State.close_lastStatus] at h
    exact absurd rfl h
  · exact .inl ⟨_, .ifTxError, by decide, hends⟩
  · exact .inr ⟨_, _, hends⟩

/-- Settles O46: an idle turn and a wait end no operation, RESET and a commit leave status 0, and a drop is its completion writes on
the state that the operation started from. -/
theorem dropsArePrecise : Obligations.DropsArePrecise := by
  intro s t henv hstep hstatus
  rw [step_of_noScript henv] at hstep
  cases State.Turns.of_engineStep hstep with
  | idle => exact ⟨s, rfl, .inl rfl⟩
  | resets => exact absurd rfl hstatus
  | @completes q k e _ hruns =>
    have hq := hruns.start_eq
    obtain ⟨a, c, hc, hdrop⟩ | ⟨a, held, hwaits⟩ := State.complete_of_status_ne_zero hstatus
    · have hcode : c.code ≠ 0 := (StatusCode.code_eq_zero_iff c).not.mpr hc
      refine ⟨{ q with txAnswers := a }, ?start, .inr ⟨hruns.held_eq, c.code, hcode, ?writes⟩⟩
      case start => rw [hq]
      case writes =>
        rw [hdrop, ← hruns.regs_eq, ← hruns.tickPend_eq]
        exact State.close_drop_cases { q with txAnswers := a } k hc
    · exact ⟨{ q with txAnswers := a, held := some held }, by rw [hq], .inl hwaits⟩

end Sys2Proof.Machine

/-! The invariants: a predicate on the registers that RESET, the counters and every handler's copy keep holds through every step, of
the committed registers and of the copy in progress; and the event inputs stay sound (10_state.md; 20_memory.md R42;
60_exceptions.md R186; 70_reset_and_hazards.md R200 to R205). -/

namespace Sys2Proof.Machine

/-! ### Predicates on the registers, the induction step said once -/

/-- What a predicate on the registers must survive to hold through every step. -/
structure Regs.Invariant (p : Params) (P : Regs → Prop) : Prop where
  atReset : ∀ c, P (.atReset c)
  counted : ∀ r rx drop tx c, P r → P (r.withCounts rx drop tx c)
  handled : ∀ r r' f, Regs.Handled p r r' f → P r → P r'

section Invariant

variable {s t : State} {P : Regs → Prop}

/-- The operation of a turn finishes with a copy that meets the invariant: a handler's, or the copy that is in progress. -/
theorem Regs.Invariant.of_runs (inv : Regs.Invariant s.params P) (hs : s.everyRegs P) {q : State} {k : OpKind} {r : Regs}
    {f : Option Bytes} (h : s.Runs q k (.finish r f)) : P r := by
  obtain ⟨hregs, hheld⟩ := hs
  obtain hhandled | ⟨held, hinProgress, rfl, -⟩ := h.finishes
  · exact inv.handled _ _ _ hhandled hregs
  · exact hheld held hinProgress

theorem Regs.Invariant.of_complete (inv : Regs.Invariant s.params P) (hs : s.everyRegs P) {q : State} {k : OpKind}
    {e : OpEnd} (h : s.Runs q k e) : (q.complete k e).everyRegs P := by
  refine ⟨?regs, fun held hheld => ?held⟩
  case regs =>
    obtain hsame | ⟨r, rx, drop, tx, c, hregs, hr⟩ := q.complete_regs k e
    · rw [hsame, h.regs_eq]
      exact hs.1
    · rw [hregs]
      apply inv.counted
      obtain rfl | ⟨f, rfl⟩ := hr
      · rw [h.regs_eq]
        exact hs.1
      · exact inv.of_runs hs h
  case held =>
    obtain hnone | ⟨r, f, rfl, hwaits⟩ := q.complete_held k e
    · rw [hnone, h.held_eq] at hheld
      cases hheld
    · rw [hwaits] at hheld
      cases hheld
      exact inv.of_runs hs h

theorem Regs.Invariant.of_reset (inv : Regs.Invariant s.params P) (q : State) : q.resetBlock.everyRegs P :=
  ⟨inv.atReset q.pins, nofun⟩

/-- Moves of the agents outside the engine leave the registers and the copy in progress. -/
theorem State.everyRegs_of_eq (hs : s.everyRegs P) (hregs : t.regs = s.regs) (hheld : t.held = s.held) : t.everyRegs P := by
  rwa [State.everyRegs, hregs, hheld]

theorem Regs.Invariant.of_moves (inv : Regs.Invariant s.params P) (hs : s.everyRegs P) (h : s.Moves t) :
    t.everyRegs P := by
  cases h with
  | turn h =>
    cases h with
    | idle => exact hs
    | resets => exact inv.of_reset s
    | completes _ hruns => exact inv.of_complete hs hruns
  | tickPulse => exact State.everyRegs_of_eq hs s.tickPulse_regs s.tickPulse_held
  | frameArrives f => exact State.everyRegs_of_eq hs (s.frameArrives_regs f) (s.frameArrives_held f)
  | commandWrite op arg => exact State.everyRegs_of_eq hs (s.commandWrite_regs op arg) (s.commandWrite_held op arg)
  | assertsReset => exact inv.of_reset _
  | deassertsReset => exact hs
  | outside => exact hs

theorem Regs.Invariant.of_step (inv : Regs.Invariant s.params P) (hs : s.everyRegs P) (h : step s = .next t) :
    t.everyRegs P :=
  Regs.Invariant.of_moves (s := { s with env := s.env.tail }) inv hs (State.Moves.of_step h)

end Invariant

/-! ### The timer registers (R25, R26) -/

theorem timersBounded_atReset (p : Params) (c : Pins) : (Regs.atReset c).timersBounded p :=
  ⟨min_le_left _ _, le_max_left _ _, Nat.zero_le _⟩

/-- R167's doubling stays within the bounds of the timeout it starts from. -/
theorem backoff_bounded (p : Params) {t : Half} (hmin : min 7 p.backoffCap.toNat ≤ t.toNat) :
    min 7 p.backoffCap.toNat ≤ (backoff p t).toNat ∧ (backoff p t).toNat ≤ max 7 p.backoffCap.toNat := by
  rw [toNat_backoff]
  omega

theorem timersBounded_invariant (p : Params) : Regs.Invariant p (Regs.timersBounded p) where
  atReset c := timersBounded_atReset p c
  counted r rx drop tx c h := h
  handled r r' f h := by
    rintro ⟨hmin, hmax, hretry⟩
    have hlap : min 7 p.backoffCap.toNat ≤ 7 ∧ 7 ≤ max 7 p.backoffCap.toNat := by omega
    cases h with
    | unchanged => exact ⟨hmin, hmax, hretry⟩
    | echoed => exact ⟨hmin, hmax, hretry⟩
    | peerLearnt => exact ⟨hmin, hmax, hretry⟩
    | peerAnswered => exact ⟨hmin, hmax, hretry⟩
    | peerAsked ip _ hr => subst hr; exact ⟨hmin, hmax, hretry⟩
    | headerLatched => exact ⟨hmin, hmax, hretry⟩
    | leaseAbandoned t ht =>
      obtain rfl | rfl | rfl := ht
      · exact ⟨hmin, hmax, Nat.zero_le _⟩
      · exact ⟨hlap.1, hlap.2, Nat.zero_le _⟩
      · exact ⟨(backoff_bounded p hmin).1, (backoff_bounded p hmin).2, Nat.zero_le _⟩
    | leaseRecorded => exact ⟨hlap.1, hlap.2, Nat.zero_le _⟩
    | offerRequested y server _ _ _ hr => subst hr; exact ⟨hmin, hmax, Nat.zero_le _⟩
    | exchangeStarted x d form _ _ _ _ hr => subst hr; exact ⟨hmin, hmax, Nat.zero_le _⟩
    | aged => exact ⟨hmin, hmax, hretry⟩
    | retried _ hleft hr =>
      subst hr
      have hnext : (r.retry + 1).toNat ≤ p.maxRetries.toNat := by
        have hmod : (r.retry + 1).toNat = (r.retry.toNat + 1) % 256 := BitVec.toNat_add ..
        exact hmod ▸ (Nat.mod_le _ _).trans hleft
      exact ⟨(backoff_bounded p hmin).1, (backoff_bounded p hmin).2, hnext⟩
    | leaseMoved d form _ _ _ hr => subst hr; exact ⟨hmin, hmax, hretry⟩

/-- Settles O49: `TMO` is only kept, set to 7 or backed off, and `RETRY` only cleared or, below its bound, counted. -/
theorem timersStayBounded : Obligations.TimersStayBounded := by
  intro s t hs hstep
  have hparams := step_params hstep
  rw [hparams]
  exact ⟨rfl, (timersBounded_invariant s.params).of_step hs hstep⟩

/-! ### The address registers (R14, R16, R19) -/

theorem addressesAgree_atReset (c : Pins) : (Regs.atReset c).addressesAgree := by
  have hidle : (Regs.atReset c).dstate.leased = false := by
    simp only [Regs.atReset]
    split <;> rfl
  refine ⟨fun hoff => ?static, fun hon _ => ?noAddress, fun hleased => ?leased⟩
  case static =>
    have hen : c.cfgDhcpEn = false := hoff
    simp [Regs.atReset, Pins.remembersLease, hen]
  case noAddress => exact if_pos hon
  case leased =>
    rw [hidle] at hleased
    cases hleased

/-- A state in which no lease is held, on a client without an address. -/
theorem addressesAgree_of_unleased {r : Regs} (hon : r.dhcpEn = true) (hidle : r.dstate.leased = false) (haddr : r.myIp = 0) :
    r.addressesAgree :=
  ⟨fun hoff => absurd (hon.symm.trans hoff) nofun, fun _ _ => haddr, fun hleased => absurd (hleased.symm.trans hidle) nofun⟩

/-- A state in which a lease is held. -/
theorem addressesAgree_of_leased {r : Regs} (hon : r.dhcpEn = true) (hleased : r.dstate.leased = true)
    (haddr : r.myIp = r.dhAddr ∧ r.myIp ≠ 0) : r.addressesAgree :=
  ⟨fun hoff => absurd (hon.symm.trans hoff) nofun, fun _ hidle => absurd (hleased.symm.trans hidle) nofun, fun _ => haddr⟩

/-- A static block holds no lease. -/
theorem Regs.addressesAgree.enabled_of_leased {r : Regs} (h : r.addressesAgree) (hleased : r.dstate.leased = true) :
    r.dhcpEn = true := by
  by_contra hoff
  rw [h.1 (Bool.not_eq_true _ ▸ hoff)] at hleased
  cases hleased

theorem addressesAgree_invariant (p : Params) : Regs.Invariant p Regs.addressesAgree where
  atReset := addressesAgree_atReset
  counted r rx drop tx c h := h
  handled r r' f h := by
    intro hr
    obtain ⟨-, hnone, hlease⟩ := id hr
    cases h with
    | unchanged => exact hr
    | echoed => exact hr
    | peerLearnt => exact hr
    | peerAnswered => exact hr
    | peerAsked ip _ heq => subst heq; exact hr
    | headerLatched => exact hr
    | leaseAbandoned => exact ⟨fun _ => rfl, fun _ _ => rfl, nofun⟩
    | leaseRecorded lease o y hon hy =>
      refine addressesAgree_of_leased hon rfl ⟨rfl, ?_⟩
      obtain hy | ⟨hleased, rfl⟩ := hy
      · exact hy
      · exact (hlease hleased).1 ▸ (hlease hleased).2
    | offerRequested y server _ hon hst heq =>
      subst heq
      exact addressesAgree_of_unleased hon rfl (hnone hon (hst ▸ rfl))
    | exchangeStarted x d form _ hon hidle hd heq =>
      subst heq
      exact addressesAgree_of_unleased hon hd (hnone hon hidle)
    | aged => exact hr
    | retried _ _ heq => subst heq; exact hr
    | leaseMoved d form _ hleased hd heq =>
      subst heq
      exact addressesAgree_of_leased (hr.enabled_of_leased hleased) hd (hlease hleased)

/-- Settles O50: an exchange starts and goes on without an address, an ACK gives one that is not 0, and the states that hold a lease
keep it until they abandon it. -/
theorem addressesStayConsistent : Obligations.AddressesStayConsistent :=
  fun s _ hs hstep => (addressesAgree_invariant s.params).of_step hs hstep

/-! ### The peer slot and the status (R27 to R30) -/

/-- What O51 says of the registers. -/
def Regs.peerAndStatusSound (r : Regs) : Prop := r.peerSlotSound ∧ r.statusInTable

theorem peerAndStatusSound_atReset (c : Pins) : (Regs.atReset c).peerAndStatusSound :=
  ⟨⟨fun _ => ⟨rfl, rfl⟩, nofun⟩, .ok, rfl⟩

theorem peerAndStatusSound_invariant (p : Params) : Regs.Invariant p Regs.peerAndStatusSound where
  atReset := peerAndStatusSound_atReset
  counted r rx drop tx c h := ⟨h.1, c, rfl⟩
  handled r r' f h := by
    rintro ⟨hslot, hstatus⟩
    cases h with
    | unchanged => exact ⟨hslot, hstatus⟩
    | echoed => exact ⟨hslot, hstatus⟩
    | peerLearnt => exact ⟨⟨nofun, nofun⟩, hstatus⟩
    | peerAnswered => exact ⟨⟨nofun, nofun⟩, hstatus⟩
    | peerAsked ip _ hr => subst hr; exact ⟨⟨nofun, fun _ => rfl⟩, hstatus⟩
    | headerLatched => exact ⟨hslot, hstatus⟩
    | leaseAbandoned => exact ⟨hslot, hstatus⟩
    | leaseRecorded => exact ⟨hslot, hstatus⟩
    | offerRequested y server _ _ _ hr => subst hr; exact ⟨hslot, hstatus⟩
    | exchangeStarted x d form _ _ _ _ hr => subst hr; exact ⟨hslot, hstatus⟩
    | aged => exact ⟨hslot, hstatus⟩
    | retried _ _ hr => subst hr; exact ⟨hslot, hstatus⟩
    | leaseMoved d form _ _ _ hr => subst hr; exact ⟨hslot, hstatus⟩

/-- Settles O51: the slot is written by the three peer rows only, and `LAST_STATUS` by the completion writes only. -/
theorem peerSlotAndStatusStaySound : Obligations.PeerSlotAndStatusStaySound :=
  fun s _ hs hstep => (peerAndStatusSound_invariant s.params).of_step hs hstep

/-! ### The event inputs (R39, R42, R186) -/

/-- The event input that an operation of each kind consumes is still there (R186). -/
def State.hasInput (s : State) : OpKind → Prop
  | .rx => s.rxFifo ≠ []
  | .tick => s.tickPend ≠ 0
  | .cmd => s.cmdValid = true

/-- An operation in progress: its input is there and the frame it holds fits. -/
def State.heldSound (s : State) (h : Held) : Prop :=
  s.hasInput h.kind ∧ 42 ≤ h.frame.length ∧ h.frame.length ≤ Config.maxFrameLen

theorem State.inputsSound_iff (s : State) :
    s.inputsSound ↔
      s.rxFifo.length ≤ s.params.rxFifoCapacity ∧
      (s.resetIn = true → s.tickPend = 0 ∧ s.cmdValid = false ∧ s.held = none) ∧
      ∀ h, s.held = some h → s.heldSound h := by
  refine and_congr_right fun _ => and_congr_right fun _ => forall₂_congr fun ⟨k, r, f⟩ _ => ?_
  cases k <;> simp [State.heldSound, State.hasInput]

section Inputs

variable {s t q : State} {k : OpKind} {e : OpEnd}

/-- The operation of a turn has its input: the one the arbiter saw, or the one that the operation in progress keeps. -/
theorem State.Runs.hasInput (hs : s.inputsSound) (h : s.Runs q k e) : s.hasInput k := by
  obtain ⟨-, -, hheldSound⟩ := s.inputsSound_iff.mp hs
  cases h with
  | cmd _ hcmd => exact hcmd
  | tick _ hpend => exact hpend
  | rx f rest _ hfifo => exact fun hempty => List.cons_ne_nil f rest (hfifo.symm.trans hempty)
  | resumed held hheld => exact (hheldSound held hheld).1

theorem State.Runs.frame_length (hs : s.inputsSound) {r : Regs} {f : Bytes} (h : s.Runs q k (.finish r (some f))) :
    42 ≤ f.length ∧ f.length ≤ Config.maxFrameLen := by
  obtain ⟨-, -, hheldSound⟩ := s.inputsSound_iff.mp hs
  obtain hhandled | ⟨held, hheld, -, hframe⟩ := h.finishes
  · exact hhandled.frame_length
  · cases hframe
    exact (hheldSound held hheld).2

theorem State.hasInput_of_eq (h : s.hasInput k) (hfifo : t.rxFifo = s.rxFifo) (hpend : t.tickPend = s.tickPend)
    (hvalid : t.cmdValid = s.cmdValid) : t.hasInput k := by
  cases k
  case rx => exact fun hempty => h (hfifo ▸ hempty)
  case tick => exact fun hzero => h (hpend ▸ hzero)
  case cmd => exact hvalid.trans h

/-- A move that leaves the reset level and the operation in progress keeps the inputs sound if it keeps the FIFO within its
capacity, loses no input, and brings none during reset. -/
theorem State.inputsSound_of_grows (hs : s.inputsSound) (hreset : t.resetIn = s.resetIn) (hheld : t.held = s.held)
    (hfifo : t.rxFifo.length ≤ t.params.rxFifoCapacity) (hinput : ∀ k, s.hasInput k → t.hasInput k)
    (hnone : s.resetIn = true → t.tickPend = s.tickPend ∧ t.cmdValid = s.cmdValid) : t.inputsSound := by
  obtain ⟨-, hlevel, hheldSound⟩ := s.inputsSound_iff.mp hs
  rw [State.inputsSound_iff, hreset, hheld]
  refine ⟨hfifo, fun hasserted => ?level, fun h hh => ⟨hinput h.kind (hheldSound h hh).1, (hheldSound h hh).2⟩⟩
  case level =>
    obtain ⟨hpend, hvalid⟩ := hnone hasserted
    rw [hpend, hvalid]
    exact hlevel hasserted

theorem State.inputsSound_resetBlock (hfifo : s.rxFifo.length ≤ s.params.rxFifoCapacity) : s.resetBlock.inputsSound :=
  ⟨hfifo, fun _ => ⟨rfl, rfl, rfl⟩, nofun⟩

/-- An operation adds no frame to the FIFO. -/
theorem State.complete_rxFifo_length (s : State) (k : OpKind) (e : OpEnd) :
    (s.complete k e).rxFifo.length ≤ s.rxFifo.length := by
  have hclose (q : State) (c : StatusCode) : (q.close k c).rxFifo.length ≤ q.rxFifo.length := by
    cases k
    case rx => rw [State.close_rx_rxFifo, List.length_tail]; omega
    case cmd => exact le_rfl
    case tick => exact le_rfl
  obtain ⟨c, -, h⟩ | ⟨r, -, h⟩ | ⟨r, t, -, -, h⟩ | ⟨r, t, -, -, h⟩ | ⟨r, t, -, -, h⟩ := s.complete_cases k e
  · rw [h]; exact hclose s c
  · rw [h]; exact hclose _ .ok
  · rw [h]; exact hclose _ .ok
  · rw [h]; exact hclose _ .ifTxError
  · rw [h]

theorem State.Runs.inputsSound_complete (hs : s.inputsSound) (hreset : s.resetIn = false) (h : s.Runs q k e) :
    (q.complete k e).inputsSound := by
  rw [State.inputsSound_iff]
  refine ⟨?fifo, fun hasserted => ?level, fun held hheld => ?held⟩
  case fifo =>
    rw [State.complete_params, h.params_eq]
    exact (q.complete_rxFifo_length k e).trans (h.rxFifo_eq ▸ hs.1)
  case level =>
    rw [State.complete_resetIn, h.resetIn_eq, hreset] at hasserted
    cases hasserted
  case held =>
    obtain hnone | ⟨r, f, rfl, hwaits⟩ := q.complete_held k e
    · rw [hnone, h.held_eq] at hheld
      cases hheld
    · rw [hwaits] at hheld ⊢
      cases hheld
      exact ⟨State.hasInput_of_eq (h.hasInput hs) h.rxFifo_eq h.tickPend_eq h.cmdValid_eq, h.frame_length hs⟩

/-- R8's saturating increment at every width; `satInc_toNat` is the 32-bit case. -/
theorem toNat_satInc {n : Nat} (v : BitVec n) : (satInc v).toNat = min (v.toNat + 1) (2 ^ n - 1) := by
  have hv := v.isLt
  rw [satInc]
  split
  case isTrue hmax => rw [hmax, BitVec.toNat_allOnes]; omega
  case isFalse hmax =>
    have hne : v.toNat ≠ 2 ^ n - 1 := fun h => hmax (BitVec.eq_of_toNat_eq (by rw [h, BitVec.toNat_allOnes]))
    have hsum : (v + 1).toNat = (v.toNat + 1) % 2 ^ n := by simp
    rw [hsum, Nat.mod_eq_of_lt (by omega)]
    omega

/-- R36: a pulse leaves a tick pending. -/
theorem satInc_ne_zero (v : BitVec 8) : satInc v ≠ 0 := by
  intro h
  have hnat := toNat_satInc v
  rw [h] at hnat
  have hzero : (0 : BitVec 8).toNat = 0 := rfl
  omega

theorem State.inputsSound_tickPulse (hs : s.inputsSound) : s.tickPulse.inputsSound := by
  rw [State.tickPulse]
  split
  case isTrue => exact hs
  case isFalse hreset =>
    refine State.inputsSound_of_grows hs rfl rfl hs.1 (fun k hk => ?_) fun hasserted => absurd hasserted hreset
    cases k
    case tick => exact satInc_ne_zero s.tickPend
    case rx => exact hk
    case cmd => exact hk

theorem State.inputsSound_frameArrives (hs : s.inputsSound) (f : RxFrame) : (s.frameArrives f).inputsSound := by
  rw [State.frameArrives]
  split
  case isTrue hroom =>
    have hfits : (s.rxFifo ++ [f]).length ≤ s.params.rxFifoCapacity := by
      rw [List.length_append]
      exact hroom
    refine State.inputsSound_of_grows hs rfl rfl hfits (fun k hk => ?_) fun _ => ⟨rfl, rfl⟩
    cases k
    case rx => exact List.append_ne_nil_of_left_ne_nil hk [f]
    case tick => exact hk
    case cmd => exact hk
  case isFalse => exact hs

/-- On the reset clause rests log 13: a command written during reset is lost. -/
theorem State.inputsSound_commandWrite (hs : s.inputsSound) (op : BitVec 8) (arg : BitVec 32) :
    (s.commandWrite op arg).inputsSound := by
  rw [State.commandWrite]
  split
  case isTrue => exact hs
  case isFalse hfree =>
    have hreset : ¬ s.resetIn = true := fun hasserted => hfree (by simp [hasserted])
    refine State.inputsSound_of_grows hs rfl rfl hs.1 (fun k hk => ?_) fun hasserted => absurd hasserted hreset
    cases k
    case cmd => rfl
    case rx => exact hk
    case tick => exact hk

theorem State.inputsSound_of_moves (hs : s.inputsSound) (h : s.Moves t) : t.inputsSound := by
  cases h with
  | turn h =>
    cases h with
    | idle => exact hs
    | resets => exact State.inputsSound_resetBlock hs.1
    | completes hreset hruns => exact hruns.inputsSound_complete hs hreset
  | tickPulse => exact State.inputsSound_tickPulse hs
  | frameArrives f => exact State.inputsSound_frameArrives hs f
  | commandWrite op arg => exact State.inputsSound_commandWrite hs op arg
  | assertsReset => exact State.inputsSound_resetBlock hs.1
  | deassertsReset => exact ⟨hs.1, nofun, hs.2.2⟩
  | outside => exact hs

end Inputs

/-- Settles O52: an operation keeps its input until it ends, and holds a handler's frame; RESET and the other agents' moves keep the
clauses as well. -/
theorem inputsStaySound : Obligations.InputsStaySound :=
  fun s _ hs hstep => State.inputsSound_of_moves (s := { s with env := s.env.tail }) hs (State.Moves.of_step hstep)

/-- Settles O53: the frame that joins the stream is the one that the turn's operation finished with. -/
theorem sentFramesFitTheMtu : Obligations.SentFramesFitTheMtu := by
  intro s t f hs hstep hsent
  obtain hsame | ⟨q, k, r, g, hruns, hgrown⟩ := (State.Moves.of_step hstep).txStream_cases
  · have hlength := congrArg List.length (hsame.symm.trans hsent)
    simp at hlength
  · have hframe : [g] = [f] := List.append_cancel_left (hgrown.symm.trans hsent)
    cases hframe
    exact State.Runs.frame_length (s := { s with env := s.env.tail }) hs hruns

theorem State.everyRegs_afterReset {P : Regs → Prop} {c : Pins} (p : Params) (h : P (.atReset c)) :
    (State.afterReset c p).everyRegs P := ⟨h, nofun⟩

theorem State.inputsSound_afterReset (c : Pins) (p : Params) : (State.afterReset c p).inputsSound :=
  ⟨Nat.zero_le _, nofun, nofun⟩

/-- Settles O54: the reset values meet the three predicates on the registers, and no input is pending. -/
theorem resetMeetsTheInvariants : Obligations.ResetMeetsTheInvariants :=
  fun c p => ⟨State.everyRegs_afterReset p (timersBounded_atReset p c),
    State.everyRegs_afterReset p (addressesAgree_atReset c), State.everyRegs_afterReset p (peerAndStatusSound_atReset c),
    State.inputsSound_afterReset c p⟩

end Sys2Proof.Machine

/-! Decoding what the encoder writes, level by level: the fields read back from a built unit are the ones it was built from, and the
checks of its level pass (30_encoding.md R70 to R74; log 20). -/

namespace Sys2Proof.Machine

/-! ### Fields read back -/

theorem be16_bytes16 (v : Half) : be16 (bytes16 v) 0 = v := BitVec.extractLsb'_append_extractLsb'

theorem be48_bytes48 (v : Mac) : be48 (bytes48 v) 0 = v := by
  have hhigh : be16 (bytes48 v) 0 = v.extractLsb' 32 16 := BitVec.extractLsb'_append_extractLsb'_eq_extractLsb' rfl
  have hmiddle : be16 (bytes48 v) 2 = v.extractLsb' 16 16 := BitVec.extractLsb'_append_extractLsb'_eq_extractLsb' rfl
  have hlow : be16 (bytes48 v) 4 = v.extractLsb' 0 16 := BitVec.extractLsb'_append_extractLsb'_eq_extractLsb' rfl
  have hrest : be32 (bytes48 v) 2 = v.extractLsb' 0 32 := by
    rw [be32, hmiddle, hlow]
    exact BitVec.extractLsb'_append_extractLsb'_eq_extractLsb' rfl
  rw [be48, hhigh, hrest]
  exact BitVec.extractLsb'_append_extractLsb'

/-- The bytes behind a unit's first `n`, up to its end. -/
theorem slice_append {a b : Bytes} {n m : Nat} (ha : a.length = n) (hm : m = n + b.length) : slice (a ++ b) n m = b := by
  rw [slice, List.take_of_length_le (by simp [ha, hm]), List.drop_left' ha]

/-! ### The units of each level pass their checks -/

theorem acceptsDst_broadcast (r : Regs) : acceptsDst r Config.broadcastIp = true := by
  simp [acceptsDst]

theorem toNat_ofNat_half {n : Nat} (h : n < 65536) : (BitVec.ofNat 16 n).toNat = n := by
  rw [BitVec.toNat_ofNat, Nat.mod_eq_of_lt h]

/-- R112's header has no options, is no fragment and verifies. -/
theorem ipEntry_ipDatagram (p : Params) {r : Regs} (proto : Byte) (src : Ip) {dst : Ip} {payload : Bytes}
    (hdst : acceptsDst r dst = true) (hlen : payload.length + 20 ≤ Config.mtu) :
    ipEntry r (ipDatagram p proto src dst payload) = .ok ⟨src, dst, proto, payload⟩ := by
  have hmtu : Config.mtu = 1500 := rfl
  have hfirst : byteAt (ipDatagram p proto src dst payload) 0 = 0x45 := rfl
  have htotal : be16 (ipDatagram p proto src dst payload) 2 = BitVec.ofNat 16 (20 + payload.length) :=
    be16_bytes16 (BitVec.ofNat 16 (20 + payload.length))
  have hflags : be16 (ipDatagram p proto src dst payload) 6 = (0x40 : Byte) ++ (0x00 : Byte) := rfl
  have hproto : byteAt (ipDatagram p proto src dst payload) 9 = proto := rfl
  have hsrc : be32 (ipDatagram p proto src dst payload) 12 = src := be32_bytes32 src
  have hdestination : be32 (ipDatagram p proto src dst payload) 16 = dst := be32_bytes32 dst
  have htot : 20 + payload.length = (be16 (ipDatagram p proto src dst payload) 2).toNat := by
    rw [htotal, toNat_ofNat_half (by omega)]
  have header : HoldsIpv4Header (ipDatagram p proto src dst payload) 20 :=
    ⟨by simp, by rw [hfirst]; rfl, by rw [hfirst]; rfl, le_rfl, by simp⟩
  have hsum : csum [(ipDatagram p proto src dst payload).take 10, [0, 0], slice (ipDatagram p proto src dst payload) 12 20] =
      be16 (ipDatagram p proto src dst payload) 10 := by
    rw [← verifies_take_iff (n := 20) (by omega), take_ipDatagram]
    exact verifies_insertChecksum (by simp) (be16_ipHeaderZero_checksum ..)
  have hpayload : slice (ipDatagram p proto src dst payload) 20 (20 + payload.length) = payload :=
    slice_append (by rw [insertChecksum, putHalf_length _ _ _ (by simp), ipHeaderZero_length]) rfl
  rw [ipEntry_ok header htot hsum (by omega) (by simp) (by rwa [hdestination]) (by rw [hflags]; decide), hsrc, hdestination,
    hproto, hpayload]

theorem icmpEntry_icmpMessage (type code : Byte) {rest : Bytes} (hrest : 4 ≤ rest.length) :
    icmpEntry (icmpMessage type code rest) = .ok ⟨type, code, rest⟩ := by
  have hzero : be16 ([type, code, 0x00, 0x00] ++ rest) 2 = (0x00 : Byte) ++ (0x00 : Byte) := rfl
  have hverifies : verifies (icmpMessage type code rest) 2 = true :=
    verifies_insertChecksum (by simp) (by rw [hzero]; decide)
  rw [verifies, beq_iff_eq] at hverifies
  exact icmpEntry_ok (by rw [icmpMessage_length]; omega) hverifies

/-- The ports and the length of R132's header, whatever its checksum field. -/
theorem be16_udpHeader (sport dport ulen field : Half) (data : Bytes) :
    be16 (bytes16 sport ++ bytes16 dport ++ bytes16 ulen ++ bytes16 field ++ data) 0 = sport ∧
    be16 (bytes16 sport ++ bytes16 dport ++ bytes16 ulen ++ bytes16 field ++ data) 2 = dport ∧
    be16 (bytes16 sport ++ bytes16 dport ++ bytes16 ulen ++ bytes16 field ++ data) 4 = ulen :=
  ⟨be16_bytes16 sport, be16_bytes16 dport, be16_bytes16 ulen⟩

theorem udpEntry_udpDatagram (src dst : Ip) (sport dport : Half) {data : Bytes} (hlen : data.length + 8 < 65536) :
    udpEntry src dst (udpDatagram src dst sport dport data) = .ok ⟨sport, dport, data⟩ := by
  obtain ⟨hsport, hdport, hulen⟩ := be16_udpHeader sport dport (BitVec.ofNat 16 (8 + data.length))
    (udpTransmitField (csum [pseudo src dst 17 (BitVec.ofNat 16 (8 + data.length)), udpZero sport dport data])) data
  have hdata : slice (udpDatagram src dst sport dport data) 8 (8 + data.length) = data := by
    rw [udpDatagram_eq]
    exact slice_append rfl rfl
  rw [← udpDatagram_eq] at hsport hdport hulen
  have datagram : HoldsUdpDatagram (udpDatagram src dst sport dport data) (8 + data.length) :=
    ⟨by rw [hulen, toNat_ofNat_half (by omega)], by omega, by simp⟩
  have hverifies : udpVerifies src dst ((udpDatagram src dst sport dport data).take (8 + data.length)) = true := by
    rw [List.take_of_length_le (by simp)]
    exact udpVerifies_udpDatagram ..
  rw [udpEntry_ok datagram hverifies, hsport, hdport, hdata]

/-- The data offset that the header declares is the length the encoder gives it. -/
theorem tcpEntry_encodeTcp {h : TcpHeader} (hwf : h.wf = true) : tcpEntry (encodeTcp h) = .ok h := by
  rw [TcpHeader.wf, decide_eq_true_eq] at hwf
  have hlength : (encodeTcp h).length = (h.offFlags.extractLsb' 12 4).toNat * 4 := by
    simp only [encodeTcp, List.length_append, bytes16_length, bytes32_length, zeros_length]
    omega
  have hdoff : (h.offFlags.extractLsb' 12 4).toNat = (byteAt (encodeTcp h) 12).toNat / 16 := by
    have hbyte : byteAt (encodeTcp h) 12 = h.offFlags.extractLsb' 8 8 := rfl
    simp only [hbyte, BitVec.extractLsb'_toNat, Nat.shiftRight_eq_div_pow]
    omega
  have hsport : be16 (encodeTcp h) 0 = h.sport := be16_bytes16 h.sport
  have hdport : be16 (encodeTcp h) 2 = h.dport := be16_bytes16 h.dport
  have hseq : be32 (encodeTcp h) 4 = h.seq := be32_bytes32 h.seq
  have hack : be32 (encodeTcp h) 8 = h.ack := be32_bytes32 h.ack
  have hoff : be16 (encodeTcp h) 12 = h.offFlags := be16_bytes16 h.offFlags
  rw [tcpEntry_ok hdoff (by omega) hwf (by omega), hsport, hdport, hseq, hack, hoff]

theorem arpEntry_arpPacket (oper : Half) (a : ArpAddrs) :
    arpEntry (arpPacket oper a.sha a.spa a.tha a.tpa) = .ok (oper, a) := by
  have hoper : be16 (arpPacket oper a.sha a.spa a.tha a.tpa) 6 = oper := be16_bytes16 oper
  have hsha : be48 (arpPacket oper a.sha a.spa a.tha a.tpa) 8 = a.sha := be48_bytes48 a.sha
  have hspa : be32 (arpPacket oper a.sha a.spa a.tha a.tpa) 14 = a.spa := be32_bytes32 a.spa
  have htha : be48 (arpPacket oper a.sha a.spa a.tha a.tpa) 18 = a.tha := be48_bytes48 a.tha
  have htpa : be32 (arpPacket oper a.sha a.spa a.tha a.tpa) 24 = a.tpa := be32_bytes32 a.tpa
  have hhtype : be16 (arpPacket oper a.sha a.spa a.tha a.tpa) 0 = (0x00 : Byte) ++ (0x01 : Byte) := rfl
  have hptype : be16 (arpPacket oper a.sha a.spa a.tha a.tpa) 2 = (0x08 : Byte) ++ (0x00 : Byte) := rfl
  rw [arpEntry_ok le_rfl (by rw [hhtype]; decide) (by rw [hptype]; decide) rfl rfl, hoper, hsha, hspa, htha, htpa]

/-! ### The DHCP message (R67 to R69, R145, R146) -/

/-- The map after an option of the encoder: recorded where it is present. -/
def ParsedOpts.recordPresent (o : ParsedOpts) (code : Byte) (v : Option Word) : ParsedOpts :=
  v.elim o fun w => recordOption o code (bytes32 w)

section Recording

variable (o : ParsedOpts) (v : Option Word)

theorem ParsedOpts.recordPresent_lease (h : o.opts.lease = none) : o.recordPresent 51 v = { o with opts.lease := v } := by
  cases v
  case none => exact congrArg (fun x : Option Word => ({ o with opts.lease := x } : ParsedOpts)) h
  case some w => rw [ParsedOpts.recordPresent, Option.elim_some, recordOption_lease, if_pos ⟨h, rfl⟩, be32_bytes32]

theorem ParsedOpts.recordPresent_server (h : o.opts.server = none) : o.recordPresent 54 v = { o with opts.server := v } := by
  cases v
  case none => exact congrArg (fun x : Option Word => ({ o with opts.server := x } : ParsedOpts)) h
  case some w => rw [ParsedOpts.recordPresent, Option.elim_some, recordOption_server, if_pos ⟨h, rfl⟩, be32_bytes32]

theorem ParsedOpts.recordPresent_t1 (h : o.opts.t1 = none) : o.recordPresent 58 v = { o with opts.t1 := v } := by
  cases v
  case none => exact congrArg (fun x : Option Word => ({ o with opts.t1 := x } : ParsedOpts)) h
  case some w => rw [ParsedOpts.recordPresent, Option.elim_some, recordOption_t1, if_pos ⟨h, rfl⟩, be32_bytes32]

theorem ParsedOpts.recordPresent_t2 (h : o.opts.t2 = none) : o.recordPresent 59 v = { o with opts.t2 := v } := by
  cases v
  case none => exact congrArg (fun x : Option Word => ({ o with opts.t2 := x } : ParsedOpts)) h
  case some w => rw [ParsedOpts.recordPresent, Option.elim_some, recordOption_t2, if_pos ⟨h, rfl⟩, be32_bytes32]

end Recording

/-- One option of the encoder, whatever fuel covers the bytes. -/
theorem parseOptions_encodeOption {code : Byte} (hpad : code ≠ 0) (hend : code ≠ 255) (v : Option Word) (tail : Bytes)
    (o : ParsedOpts) {fuel : Nat} (hfuel : (encodeOption code v ++ tail).length ≤ fuel) :
    parseOptions fuel (encodeOption code v ++ tail) o =
      parseOptions tail.length tail (o.recordPresent code v) := by
  rw [parseOptions_fuel_irrelevant o hfuel le_rfl]
  cases v
  case none => rfl
  case some w =>
    calc parseOptions (encodeOption code (some w) ++ tail).length (encodeOption code (some w) ++ tail) o
        = parseOptions (tail.length + 5) tail (recordOption o code (bytes32 w)) :=
          parseOptions_option (len := 4) (v := bytes32 w) (tail.length + 5) tail o hpad hend rfl
      _ = parseOptions tail.length tail (o.recordPresent code (some w)) :=
          parseOptions_fuel_irrelevant _ (by omega) le_rfl

/-- The options the encoder writes parse to the message type and the present values. -/
theorem parseOptions_encodeOptions (mt : Byte) (o : DhcpOpts) :
    parseOptions (encodeOptions mt o).length (encodeOptions mt o) .empty = ⟨some mt, o⟩ := by
  have hbytes : encodeOptions mt o =
      53 :: 1 :: ([mt] ++ (encodeOption 51 o.lease ++ (encodeOption 54 o.server ++ (encodeOption 58 o.t1 ++
        (encodeOption 59 o.t2 ++ [255]))))) := by simp [encodeOptions]
  have htype : recordOption .empty 53 [mt] = ⟨some mt, noOpts⟩ := rfl
  rw [hbytes, List.length_cons, parseOptions_option _ _ _ (by decide) (by decide) rfl, htype,
    parseOptions_encodeOption (by decide) (by decide) _ _ _ (by simp; omega), ParsedOpts.recordPresent_lease _ _ rfl,
    parseOptions_encodeOption (by decide) (by decide) _ _ _ le_rfl, ParsedOpts.recordPresent_server _ _ rfl,
    parseOptions_encodeOption (by decide) (by decide) _ _ _ le_rfl, ParsedOpts.recordPresent_t1 _ _ rfl,
    parseOptions_encodeOption (by decide) (by decide) _ _ _ le_rfl, ParsedOpts.recordPresent_t2 _ _ rfl]
  rfl

/-- A server's message to the client's current exchange passes R140 to R147. -/
theorem dhcpEntry_serverMsg {p : Params} {r : Regs} (hp : 28 ≤ p.optBufLen) (hon : r.dhcpEn = true) (y : Ip) (mt : Byte)
    (o : DhcpOpts) : dhcpEntry p r (serverMsg r y (encodeOptions mt o)) = .ok ⟨y, mt, o⟩ := by
  have hxid : be32 (serverMsg r y (encodeOptions mt o)) 4 = r.xid := be32_bytes32 r.xid
  have hyiaddr : be32 (serverMsg r y (encodeOptions mt o)) 16 = y := be32_bytes32 y
  have hcookie : be32 (serverMsg r y (encodeOptions mt o)) 236 = 0x63825363 := be32_bytes32 Config.magicCookie
  have hreply : IsDhcpReply r (serverMsg r y (encodeOptions mt o)) := ⟨hon, by simp, rfl, hcookie, hxid⟩
  have hoptions : optionBytes p (serverMsg r y (encodeOptions mt o)) = encodeOptions mt o := by
    have hlen := encodeOptions_length_le mt o
    rw [optionBytes, slice, List.take_of_length_le (by rw [serverMsg_length]; omega), serverMsg]
    exact List.drop_left' (by simp)
  have hparsed := parseOptions_encodeOptions mt o
  rw [← hoptions] at hparsed
  rw [dhcpEntry_ok hreply rfl (mt := mt) (by rw [hparsed]), hparsed, hyiaddr]

/-! ### Frames -/

section Frames

variable (p : Params) (r : Regs)

/-- R87 to R91 on a frame that the encoder wrote: the class is decided by the EtherType it was given. -/
theorem decodeFrame_encodeEth (ethSrc : Mac) (et : Half) {payload : Bytes} (hlen : payload.length ≤ Config.mtu) :
    decodeFrame p r (encodeEth ethSrc et payload) =
      if et.toNat ≤ Config.lengthLimit.toNat then .eth8023 et
      else if et = Config.etherTypeArp then decodeArp ethSrc payload
      else if et = Config.etherTypeIpv4 then decodeIpv4 p r ethSrc payload
      else .ethOther et := by
  have htype : be16 (encodeEth ethSrc et payload) 12 = et := be16_bytes16 et
  have hsrc : be48 (encodeEth ethSrc et payload) 6 = ethSrc := be48_bytes48 ethSrc
  have hpayload : (encodeEth ethSrc et payload).drop 14 = payload := rfl
  have hmin : ¬ (encodeEth ethSrc et payload).length < 14 := by simp
  have hmax : ¬ Config.maxFrameLen < (encodeEth ethSrc et payload).length := by
    rw [encodeEth_length, Config.maxFrameLen]
    omega
  simp only [decodeFrame, if_neg hmin, if_neg hmax, htype, hsrc, hpayload]

theorem decodeFrame_encodeEth_arp (ethSrc : Mac) {pkt : Bytes} (hlen : pkt.length ≤ Config.mtu) :
    decodeFrame p r (encodeEth ethSrc Config.etherTypeArp pkt) = decodeArp ethSrc pkt := by
  rw [decodeFrame_encodeEth p r ethSrc _ hlen, if_neg (by decide), if_pos rfl]

theorem decodeFrame_encodeEth_ipv4 (ethSrc : Mac) {dgram : Bytes} (hlen : dgram.length ≤ Config.mtu) :
    decodeFrame p r (encodeEth ethSrc Config.etherTypeIpv4 dgram) = decodeIpv4 p r ethSrc dgram := by
  rw [decodeFrame_encodeEth p r ethSrc _ hlen, if_neg (by decide), if_neg (by decide), if_pos rfl]

/-- R107 on a datagram that the encoder wrote. -/
theorem decodeFrame_encodeIp (ethSrc : Mac) (proto : Byte) (src : Ip) {dst : Ip} {payload : Bytes}
    (hdst : acceptsDst r dst = true) (hlen : payload.length + 20 ≤ Config.mtu) :
    decodeFrame p r (encodeIp p ethSrc proto src dst payload) =
      if proto = Config.protoIcmp then decodeIcmp ethSrc src dst payload
      else if proto = Config.protoUdp then decodeUdp p r src dst payload
      else if proto = Config.protoTcp then decodeTcp payload
      else .ipOther proto := by
  rw [encodeIp, decodeFrame_encodeEth_ipv4 p r ethSrc (by rw [ipDatagram_length]; omega)]
  exact decodeIpv4_of_ok (ipEntry_ipDatagram p proto src hdst hlen)

/-- R128 and R129 on a datagram that the encoder wrote. -/
theorem decodeFrame_encodeUdp (sport dport : Half) {data : Bytes} (hlen : data.length + 28 ≤ Config.mtu) :
    decodeFrame p r (encodeUdp p sport dport data) =
      if sport = 67 ∧ dport = 68 then decodeDhcp p r data else .udpOther sport dport := by
  have hmtu : Config.mtu = 1500 := rfl
  rw [encodeUdp, decodeFrame_encodeIp p r 0 _ 0 (acceptsDst_broadcast r) (by rw [udpDatagram_length]; omega),
    if_neg (by decide), if_pos rfl, decodeUdp_of_ok (udpEntry_udpDatagram _ _ sport dport (by omega))]

theorem decodeFrame_encodeDhcp {d : Bytes} (hlen : d.length + 28 ≤ Config.mtu) :
    decodeFrame p r (encodeDhcp p d) = decodeDhcp p r d := by
  rw [encodeDhcp, decodeFrame_encodeUdp p r _ _ hlen, if_pos ⟨rfl, rfl⟩]

theorem decodeFrame_encodeDhcp_serverMsg (hp : p.wf = true) (hon : r.dhcpEn = true) (y : Ip) (mt : Byte) (o : DhcpOpts) :
    decodeFrame p r (encodeDhcp p (serverMsg r y (encodeOptions mt o))) = decodeDhcpType r.dstate ⟨y, mt, o⟩ := by
  simp only [Params.wf, Bool.and_eq_true, decide_eq_true_eq] at hp
  obtain ⟨-, hbuf⟩ := hp
  have hmtu : Config.mtu = 1500 := rfl
  have hlen := encodeOptions_length_le mt o
  rw [decodeFrame_encodeDhcp p r (by rw [serverMsg_length]; omega), decodeDhcp_of_ok (dhcpEntry_serverMsg (by omega) hon y mt o)]

end Frames

/-- A level whose checks refuse the payload answers an error. -/
theorem exists_error_of_refuses {α : Type} {x : Except StatusCode α} (h : refuses x = true) : ∃ c, x = .error c := by
  match x with
  | .error c => exact ⟨c, rfl⟩

/-! ### The round trips -/

/-- The statement of the round trips for one row: the bytes that the encoder writes for it decode to it. -/
def RoundTrips (p : Params) (r : Regs) (i : Instr) : Prop := decode p r (encode p r i).1 (encode p r i).2 = .ok i

theorem roundTrips_of_frame {p : Params} {r : Regs} {i : Instr} {f : Bytes} (hencode : encode p r i = (.frame, f))
    (hdecode : decodeFrame p r f = i) : RoundTrips p r i := by
  rw [RoundTrips, hencode]
  exact congrArg Except.ok hdecode

theorem roundTrips_cmdArpResolve (p : Params) (r : Regs) (ip : Ip) : RoundTrips p r (.cmdArpResolve ip) :=
  decode_command p r 2 ip

theorem roundTrips_cmdReserved (p : Params) (r : Regs) {op : BitVec 8} (h : 3 ≤ op.toNat) :
    RoundTrips p r (.cmdReserved op) := congrArg Except.ok (decodeCommand_reserved h _)

section Ethernet

variable (p : Params) (r : Regs)

theorem roundTrips_ethRunt {n : Nat} (h : n < 14) : RoundTrips p r (.ethRunt n) := by
  refine roundTrips_of_frame rfl ?_
  simp only [decodeFrame, zeros_length, if_pos h]

theorem roundTrips_ethOversize {n : Nat} (h : Config.maxFrameLen < n) : RoundTrips p r (.ethOversize n) := by
  have hmax : Config.maxFrameLen = 1514 := rfl
  have hmin : ¬ n < 14 := by omega
  refine roundTrips_of_frame rfl ?_
  simp only [decodeFrame, zeros_length, if_neg hmin, if_pos h]

theorem roundTrips_eth8023 {n : Half} (h : n.toNat ≤ Config.lengthLimit.toNat) : RoundTrips p r (.eth8023 n) :=
  roundTrips_of_frame rfl (by rw [decodeFrame_encodeEth p r 0 n (Nat.zero_le _), if_pos h])

theorem roundTrips_ethOther {et : Half} (hlen : Config.lengthLimit.toNat < et.toNat) (harp : et ≠ Config.etherTypeArp)
    (hip : et ≠ Config.etherTypeIpv4) : RoundTrips p r (.ethOther et) :=
  roundTrips_of_frame rfl (by
    rw [decodeFrame_encodeEth p r 0 et (Nat.zero_le _), if_neg (Nat.not_le.mpr hlen), if_neg harp, if_neg hip])

theorem roundTrips_ethArp (ethSrc : Mac) {pkt : Bytes} (hlen : pkt.length ≤ Config.mtu)
    (hrefuses : refuses (arpEntry pkt) = true) : RoundTrips p r (.ethArp ethSrc pkt) := by
  obtain ⟨c, herror⟩ := exists_error_of_refuses hrefuses
  exact roundTrips_of_frame rfl (by rw [decodeFrame_encodeEth_arp p r ethSrc hlen, decodeArp_of_error herror])

theorem roundTrips_ethIpv4 (ethSrc : Mac) {dgram : Bytes} (hlen : dgram.length ≤ Config.mtu)
    (hrefuses : refuses (ipEntry r dgram) = true) : RoundTrips p r (.ethIpv4 ethSrc dgram) := by
  obtain ⟨c, herror⟩ := exists_error_of_refuses hrefuses
  exact roundTrips_of_frame rfl (by rw [decodeFrame_encodeEth_ipv4 p r ethSrc hlen, decodeIpv4_of_error herror])

theorem decodeFrame_arpPacket (ethSrc : Mac) (oper : Half) (a : ArpAddrs) :
    decodeFrame p r (encodeEth ethSrc Config.etherTypeArp (arpPacket oper a.sha a.spa a.tha a.tpa)) =
      if oper = 1 then .arpRequest ethSrc a else if oper = 2 then .arpReply a else .arpBadOper oper := by
  rw [decodeFrame_encodeEth_arp p r ethSrc (by rw [arpPacket_length]; decide), decodeArp_of_ok (arpEntry_arpPacket oper a)]

theorem roundTrips_arpBadOper {oper : Half} (h1 : oper ≠ 1) (h2 : oper ≠ 2) : RoundTrips p r (.arpBadOper oper) :=
  roundTrips_of_frame rfl ((decodeFrame_arpPacket p r 0 oper ⟨0, 0, 0, 0⟩).trans (by rw [if_neg h1, if_neg h2]))

end Ethernet

/-- Settles O56: each operation, command, tick and read is a fixed word or carries its operand, and each Ethernet and ARP row is a
frame that its level's checks lead back to. -/
theorem decodeEncodeUpToArp : Obligations.DecodeEncodeUpToArp := by
  intro p r i hformat hwf hadmitted
  cases i
  case cmdArpResolve ip => exact roundTrips_cmdArpResolve p r ip
  case cmdReserved op => exact roundTrips_cmdReserved p r (decide_eq_true_eq.mp hwf)
  case ethRunt n => exact roundTrips_ethRunt p r (decide_eq_true_eq.mp hwf)
  case ethOversize n => exact roundTrips_ethOversize p r (decide_eq_true_eq.mp hwf)
  case eth8023 n => exact roundTrips_eth8023 p r (decide_eq_true_eq.mp hwf)
  case ethOther et =>
    simp only [Instr.WellFormed, Bool.and_eq_true, decide_eq_true_eq, bne_iff_ne] at hwf
    obtain ⟨⟨hlen, harp⟩, hip⟩ := hwf
    exact roundTrips_ethOther p r hlen harp hip
  case ethArp ethSrc pkt => exact roundTrips_ethArp p r ethSrc (decide_eq_true_eq.mp hwf) hadmitted
  case ethIpv4 ethSrc dgram => exact roundTrips_ethIpv4 p r ethSrc (decide_eq_true_eq.mp hwf) hadmitted
  case arpRequest ethSrc a => exact roundTrips_of_frame rfl (decodeFrame_arpPacket p r ethSrc 1 a)
  case arpReply a => exact roundTrips_of_frame rfl (decodeFrame_arpPacket p r 0 2 a)
  case arpBadOper oper =>
    simp only [Instr.WellFormed, Bool.and_eq_true, bne_iff_ne] at hwf
    exact roundTrips_arpBadOper p r hwf.1 hwf.2
  case reset | cmd | tick | rx | read | cmdNop | cmdDhcpRestart => rfl
  case tickStatic | tickInit | tickSelecting | tickRequesting | tickBound | tickRenewing | tickRebinding | tickInitReboot |
      tickRebooting => rfl
  all_goals exact absurd hformat (by simp [Instr.format])

section IpFamily

variable (p : Params) (r : Regs)

theorem roundTrips_ipIcmp (ethSrc : Mac) (src : Ip) {dst : Ip} {msg : Bytes} (hlen : msg.length + 20 ≤ Config.mtu)
    (hdst : acceptsDst r dst = true) (hrefuses : refuses (icmpEntry msg) = true) :
    RoundTrips p r (.ipIcmp ethSrc src dst msg) := by
  obtain ⟨c, herror⟩ := exists_error_of_refuses hrefuses
  exact roundTrips_of_frame rfl
    (by rw [decodeFrame_encodeIp p r ethSrc _ src hdst hlen, if_pos rfl, decodeIcmp_of_error herror])

theorem roundTrips_ipUdp (src : Ip) {dst : Ip} {payload : Bytes} (hlen : payload.length + 20 ≤ Config.mtu)
    (hdst : acceptsDst r dst = true) (hrefuses : refuses (udpEntry src dst payload) = true) :
    RoundTrips p r (.ipUdp src dst payload) := by
  obtain ⟨c, herror⟩ := exists_error_of_refuses hrefuses
  exact roundTrips_of_frame rfl
    (by rw [decodeFrame_encodeIp p r 0 _ src hdst hlen, if_neg (by decide), if_pos rfl, decodeUdp_of_error herror])

/-- A segment in a frame of the encoder reaches the TCP level. -/
theorem decodeFrame_encodeIp_tcp {segment : Bytes} (hlen : segment.length + 20 ≤ Config.mtu) :
    decodeFrame p r (encodeIp p 0 Config.protoTcp 0 Config.broadcastIp segment) = decodeTcp segment := by
  rw [decodeFrame_encodeIp p r 0 _ 0 (acceptsDst_broadcast r) hlen, if_neg (by decide), if_neg (by decide), if_pos rfl]

theorem roundTrips_ipTcp {segment : Bytes} (hlen : segment.length + 20 ≤ Config.mtu)
    (hrefuses : refuses (tcpEntry segment) = true) : RoundTrips p r (.ipTcp segment) := by
  obtain ⟨c, herror⟩ := exists_error_of_refuses hrefuses
  exact roundTrips_of_frame rfl (by rw [decodeFrame_encodeIp_tcp p r hlen, decodeTcp_of_error herror])

theorem encodeTcp_length_le (h : TcpHeader) : (encodeTcp h).length ≤ 60 := by
  have hdoff := (h.offFlags.extractLsb' 12 4).isLt
  simp only [encodeTcp, List.length_append, bytes16_length, bytes32_length, zeros_length]
  omega

theorem roundTrips_tcpInspect {h : TcpHeader} (hwf : h.wf = true) : RoundTrips p r (.tcpInspect h) := by
  have hmtu : Config.mtu = 1500 := rfl
  have hlen := encodeTcp_length_le h
  exact roundTrips_of_frame rfl
    (by rw [decodeFrame_encodeIp_tcp p r (by omega), decodeTcp_of_ok (tcpEntry_encodeTcp hwf)])

theorem roundTrips_ipOther {proto : Byte} (hicmp : proto ≠ Config.protoIcmp) (hudp : proto ≠ Config.protoUdp)
    (htcp : proto ≠ Config.protoTcp) : RoundTrips p r (.ipOther proto) :=
  roundTrips_of_frame rfl (by
    rw [decodeFrame_encodeIp p r 0 proto 0 (acceptsDst_broadcast r) (by decide), if_neg hicmp, if_neg hudp, if_neg htcp])

/-- A message in a frame of the encoder passes the ICMP level's checks. -/
theorem decodeFrame_encodeIp_icmpMessage (ethSrc : Mac) (src : Ip) (type code : Byte) {rest : Bytes} (hmin : 4 ≤ rest.length)
    (hmax : rest.length + 24 ≤ Config.mtu) :
    decodeFrame p r (encodeIp p ethSrc Config.protoIcmp src Config.broadcastIp (icmpMessage type code rest)) =
      if type = 8 then .icmpEcho ethSrc src code rest else .icmpOther type := by
  rw [decodeFrame_encodeIp p r ethSrc _ src (acceptsDst_broadcast r) (by rw [icmpMessage_length]; omega), if_pos rfl,
    decodeIcmp_of_ok (icmpEntry_icmpMessage type code hmin)]

theorem roundTrips_icmpOther {type : Byte} (h : type ≠ 8) : RoundTrips p r (.icmpOther type) :=
  roundTrips_of_frame rfl (by
    rw [decodeFrame_encodeIp_icmpMessage p r 0 0 type 0 (by simp) (by decide), if_neg h])

theorem roundTrips_udpDhcp {msg : Bytes} (hlen : msg.length + 28 ≤ Config.mtu)
    (hrefuses : refuses (dhcpEntry p r msg) = true) : RoundTrips p r (.udpDhcp msg) := by
  obtain ⟨c, herror⟩ := exists_error_of_refuses hrefuses
  exact roundTrips_of_frame rfl (by rw [decodeFrame_encodeDhcp p r hlen, decodeDhcp_of_error herror])

theorem roundTrips_udpOther {sport dport : Half} (h : ¬ (sport = 67 ∧ dport = 68)) :
    RoundTrips p r (.udpOther sport dport) :=
  roundTrips_of_frame rfl (by rw [decodeFrame_encodeUdp p r sport dport (by decide), if_neg h])

end IpFamily

/-- Settles O57: each row's frame passes the checks above its level, and at its level it is the row's own class or is refused. -/
theorem decodeEncodeIpFamily : Obligations.DecodeEncodeIpFamily := by
  intro p r i hformat hwf hadmitted
  cases i
  case ipIcmp ethSrc src dst msg =>
    obtain ⟨hdst, hrefuses⟩ := (Bool.and_eq_true _ _).mp hadmitted
    exact roundTrips_ipIcmp p r ethSrc src (decide_eq_true_eq.mp hwf) hdst hrefuses
  case ipUdp src dst payload =>
    obtain ⟨hdst, hrefuses⟩ := (Bool.and_eq_true _ _).mp hadmitted
    exact roundTrips_ipUdp p r src (decide_eq_true_eq.mp hwf) hdst hrefuses
  case ipTcp segment => exact roundTrips_ipTcp p r (decide_eq_true_eq.mp hwf) hadmitted
  case ipOther proto =>
    simp only [Instr.WellFormed, Bool.and_eq_true, bne_iff_ne] at hwf
    obtain ⟨⟨hicmp, hudp⟩, htcp⟩ := hwf
    exact roundTrips_ipOther p r hicmp hudp htcp
  case icmpEcho ethSrc src code rest =>
    simp only [Instr.WellFormed, Bool.and_eq_true, decide_eq_true_eq] at hwf
    exact roundTrips_of_frame rfl (decodeFrame_encodeIp_icmpMessage p r ethSrc src 8 code hwf.1 hwf.2)
  case icmpOther type => exact roundTrips_icmpOther p r (bne_iff_ne.mp hwf)
  case udpDhcp msg => exact roundTrips_udpDhcp p r (decide_eq_true_eq.mp hwf) hadmitted
  case udpOther sport dport =>
    refine roundTrips_udpOther p r ?_
    rintro ⟨rfl, rfl⟩
    cases hwf
  case tcpInspect h => exact roundTrips_tcpInspect p r hwf
  all_goals exact absurd hformat (by simp [Instr.format])

/-- Settles O58: the message passes the acceptance checks with the row's operands, and R148's dispatch on its type in the state that
admits the row gives the row. -/
theorem decodeEncodeDhcp : Obligations.DecodeEncodeDhcp := by
  intro p r i hp hformat _hwf hadmitted
  cases i
  case dhcpOffer y o =>
    simp only [Instr.admitted, Bool.and_eq_true, beq_iff_eq] at hadmitted
    obtain ⟨hon, hst⟩ := hadmitted
    exact roundTrips_of_frame rfl (by rw [decodeFrame_encodeDhcp_serverMsg p r hp hon, hst]; rfl)
  case dhcpAckBind y o =>
    simp only [Instr.admitted, Bool.and_eq_true, Bool.or_eq_true, beq_iff_eq] at hadmitted
    obtain ⟨hon, hst | hst⟩ := hadmitted <;>
      exact roundTrips_of_frame rfl (by rw [decodeFrame_encodeDhcp_serverMsg p r hp hon, hst]; rfl)
  case dhcpAckExtend y o =>
    simp only [Instr.admitted, Bool.and_eq_true, Bool.or_eq_true, beq_iff_eq] at hadmitted
    obtain ⟨hon, hst | hst⟩ := hadmitted <;>
      exact roundTrips_of_frame rfl (by rw [decodeFrame_encodeDhcp_serverMsg p r hp hon, hst]; rfl)
  case dhcpNak =>
    simp only [Instr.admitted, Bool.and_eq_true, Bool.or_eq_true, beq_iff_eq] at hadmitted
    obtain ⟨hon, ((hst | hst) | hst) | hst⟩ := hadmitted <;>
      exact roundTrips_of_frame rfl (by rw [decodeFrame_encodeDhcp_serverMsg p r hp hon, hst]; rfl)
  case dhcpOther mt =>
    simp only [Instr.admitted, Bool.and_eq_true, beq_iff_eq] at hadmitted
    obtain ⟨hon, hother⟩ := hadmitted
    exact roundTrips_of_frame rfl ((decodeFrame_encodeDhcp_serverMsg p r hp hon 0 mt noOpts).trans hother)
  all_goals exact absurd hformat (by simp [Instr.format])

end Sys2Proof.Machine

/-! What the decoder can answer: well-formed rows that the registers admit (30_encoding.md R72 to R75). -/

namespace Sys2Proof.Machine

/-- The row is well-formed and the registers admit it. -/
def Answerable (p : Params) (r : Regs) (i : Instr) : Prop := i.WellFormed = true ∧ i.admitted p r = true

theorem refuses_of_error {α : Type} {x : Except StatusCode α} {c : StatusCode} (h : x = .error c) : refuses x = true := by
  rw [h]
  rfl

/-! ### What a level's passed checks say of the fields they hand on -/

theorem icmpEntry_ok_fields {m rest : Bytes} {type code : Byte} (h : icmpEntry m = .ok ⟨type, code, rest⟩) :
    4 ≤ rest.length ∧ rest.length + 4 = m.length := by
  by_cases hlen : m.length < 8
  · rw [icmpEntry_short hlen] at h
    cases h
  rw [Nat.not_lt] at hlen
  rw [icmpEntry_of_length hlen] at h
  split at h
  · cases h
  · cases h
    rw [List.length_drop]
    omega

theorem udpEntry_ok_fields {src dst : Ip} {d data : Bytes} {sport dport : Half}
    (h : udpEntry src dst d = .ok ⟨sport, dport, data⟩) : data.length + 8 ≤ d.length := by
  by_cases hlen : d.length < 8
  · rw [udpEntry_short hlen] at h
    cases h
  rw [Nat.not_lt] at hlen
  by_cases hbad : (be16 d 4).toNat < 8 ∨ d.length < (be16 d 4).toNat
  · rw [udpEntry_badLength hlen rfl hbad] at h
    cases h
  obtain ⟨hmin, hfits⟩ := not_or.mp hbad
  rw [udpEntry_of_datagram ⟨rfl, Nat.not_lt.mp hmin, Nat.not_lt.mp hfits⟩] at h
  split at h
  · cases h
    rw [length_slice]
    omega
  · cases h

theorem toNat_highNibble_be16 (f : Bytes) (i : Nat) :
    ((be16 f i).extractLsb' 12 4).toNat = (byteAt f i).toNat / 16 := by
  have hhigh := (byteAt f i).isLt
  have hlow := (byteAt f (i + 1)).isLt
  have happend : (be16 f i).toNat = (byteAt f i).toNat * 256 + (byteAt f (i + 1)).toNat := by
    rw [be16, BitVec.toNat_append, ← Nat.shiftLeft_add_eq_or_of_lt hlow, Nat.shiftLeft_eq]
  rw [BitVec.extractLsb'_toNat, happend, Nat.shiftRight_eq_div_pow]
  omega

theorem tcpEntry_ok_wf {segment : Bytes} {h : TcpHeader} (hentry : tcpEntry segment = .ok h) : h.wf = true := by
  rw [tcpEntry_eq rfl] at hentry
  split at hentry
  case isTrue => cases hentry
  case isFalse hpasses =>
    cases hentry
    rw [TcpHeader.wf, decide_eq_true_eq, toNat_highNibble_be16]
    omega

/-! ### The levels of the frame tree -/

section Levels

variable (p : Params) (r : Regs)

theorem decodeArp_answerable (ethSrc : Mac) {pkt : Bytes} (hlen : pkt.length ≤ Config.mtu) :
    Answerable p r (decodeArp ethSrc pkt) := by
  match hentry : arpEntry pkt with
  | .error c =>
    rw [decodeArp_of_error hentry]
    exact ⟨decide_eq_true hlen, refuses_of_error hentry⟩
  | .ok (oper, a) =>
    rw [decodeArp_of_ok hentry]
    split
    · exact ⟨rfl, rfl⟩
    split
    · exact ⟨rfl, rfl⟩
    case isFalse hreq hrep => exact ⟨(Bool.and_eq_true _ _).mpr ⟨bne_iff_ne.mpr hreq, bne_iff_ne.mpr hrep⟩, rfl⟩

theorem decodeIcmp_answerable (ethSrc : Mac) (src : Ip) {dst : Ip} {msg : Bytes} (hdst : acceptsDst r dst = true)
    (hlen : msg.length + 20 ≤ Config.mtu) : Answerable p r (decodeIcmp ethSrc src dst msg) := by
  match hentry : icmpEntry msg with
  | .error c =>
    rw [decodeIcmp_of_error hentry]
    exact ⟨decide_eq_true hlen, (Bool.and_eq_true _ _).mpr ⟨hdst, refuses_of_error hentry⟩⟩
  | .ok ⟨type, code, rest⟩ =>
    obtain ⟨hmin, hrest⟩ := icmpEntry_ok_fields hentry
    rw [decodeIcmp_of_ok hentry]
    split
    case isTrue => exact ⟨(Bool.and_eq_true _ _).mpr ⟨decide_eq_true hmin, decide_eq_true (by omega)⟩, rfl⟩
    case isFalse htype => exact ⟨bne_iff_ne.mpr htype, rfl⟩

theorem decodeTcp_answerable {segment : Bytes} (hlen : segment.length + 20 ≤ Config.mtu) :
    Answerable p r (decodeTcp segment) := by
  match hentry : tcpEntry segment with
  | .error c =>
    rw [decodeTcp_of_error hentry]
    exact ⟨decide_eq_true hlen, refuses_of_error hentry⟩
  | .ok h =>
    rw [decodeTcp_of_ok hentry]
    exact ⟨tcpEntry_ok_wf hentry, rfl⟩

/-- The row that R148's table gives is one that it gives in this state. -/
theorem decodeDhcpType_answerable (m : DhcpFields) (hon : r.dhcpEn = true) :
    Answerable p r (decodeDhcpType r.dstate m) := by
  rw [decodeDhcpType]
  split
  case isTrue h => exact ⟨rfl, by simp [Instr.admitted, hon, h.2]⟩
  split
  case isTrue h => exact ⟨rfl, by simpa [Instr.admitted, hon] using h.2⟩
  split
  case isTrue h => exact ⟨rfl, by simpa [Instr.admitted, hon] using h.2⟩
  split
  case isTrue h => exact ⟨rfl, by simpa [Instr.admitted, hon, or_assoc] using h.2⟩
  case isFalse hoffer hbind hextend hnak =>
    have hother : decodeDhcpType r.dstate ⟨0, m.msgType, noOpts⟩ = .dhcpOther m.msgType := by
      rw [decodeDhcpType, if_neg hoffer, if_neg hbind, if_neg hextend, if_neg hnak]
    exact ⟨rfl, (Bool.and_eq_true _ _).mpr ⟨hon, beq_iff_eq.mpr hother⟩⟩

theorem decodeDhcp_answerable {d : Bytes} (hlen : d.length + 28 ≤ Config.mtu) : Answerable p r (decodeDhcp p r d) := by
  match hentry : dhcpEntry p r d with
  | .error c =>
    rw [decodeDhcp_of_error hentry]
    exact ⟨decide_eq_true hlen, refuses_of_error hentry⟩
  | .ok m =>
    rw [decodeDhcp_of_ok hentry]
    exact decodeDhcpType_answerable p r m (dhcpEntry_ok_enabled hentry)

theorem decodeUdp_answerable (src : Ip) {dst : Ip} {payload : Bytes} (hdst : acceptsDst r dst = true)
    (hlen : payload.length + 20 ≤ Config.mtu) : Answerable p r (decodeUdp p r src dst payload) := by
  match hentry : udpEntry src dst payload with
  | .error c =>
    rw [decodeUdp_of_error hentry]
    exact ⟨decide_eq_true hlen, (Bool.and_eq_true _ _).mpr ⟨hdst, refuses_of_error hentry⟩⟩
  | .ok ⟨sport, dport, data⟩ =>
    have hdata := udpEntry_ok_fields hentry
    rw [decodeUdp_of_ok hentry]
    split
    case isTrue => exact decodeDhcp_answerable p r (by omega)
    case isFalse hports =>
      exact ⟨by simpa [Instr.WellFormed, Config.dhcpServerPort, Config.dhcpClientPort, imp_iff_not_or] using hports, rfl⟩

theorem decodeIpv4_answerable (ethSrc : Mac) {dgram : Bytes} (hlen : dgram.length ≤ Config.mtu) :
    Answerable p r (decodeIpv4 p r ethSrc dgram) := by
  match hentry : ipEntry r dgram with
  | .error c =>
    rw [decodeIpv4_of_error hentry]
    exact ⟨decide_eq_true hlen, refuses_of_error hentry⟩
  | .ok ⟨src, dst, proto, payload⟩ =>
    obtain ⟨hpayload, hdst⟩ := ipEntry_ok_fields hentry
    rw [decodeIpv4_of_ok hentry]
    split
    · exact decodeIcmp_answerable p r ethSrc src hdst (by omega)
    split
    · exact decodeUdp_answerable p r src hdst (by omega)
    split
    · exact decodeTcp_answerable p r (by omega)
    case isFalse hicmp hudp htcp =>
      have hnamed : (proto != Config.protoIcmp && proto != Config.protoUdp) = true :=
        (Bool.and_eq_true _ _).mpr ⟨bne_iff_ne.mpr hicmp, bne_iff_ne.mpr hudp⟩
      exact ⟨(Bool.and_eq_true _ _).mpr ⟨hnamed, bne_iff_ne.mpr htcp⟩, rfl⟩

theorem decodeFrame_answerable (f : Bytes) : Answerable p r (decodeFrame p r f) := by
  have hpayload (hmax : ¬ Config.maxFrameLen < f.length) : (f.drop 14).length ≤ Config.mtu := by
    rw [Config.maxFrameLen] at hmax
    rw [List.length_drop]
    omega
  simp only [decodeFrame]
  split
  case isTrue h => exact ⟨decide_eq_true h, rfl⟩
  split
  case isTrue h => exact ⟨decide_eq_true h, rfl⟩
  split
  case isTrue h => exact ⟨decide_eq_true h, rfl⟩
  split
  case isTrue hmax _ _ => exact decodeArp_answerable p r _ (hpayload hmax)
  split
  case isTrue hmax _ _ _ => exact decodeIpv4_answerable p r _ (hpayload hmax)
  case isFalse hlength harp hip =>
    exact ⟨by simp [Instr.WellFormed, Nat.not_le.mp hlength, harp, hip], rfl⟩

/-! ### The other ports -/

theorem decodeCommand_answerable (op : BitVec 8) (arg : BitVec 32) : Answerable p r (decodeCommand op arg) := by
  obtain rfl | rfl | rfl | hreserved := cmdOp_cases op
  · exact ⟨rfl, rfl⟩
  · exact ⟨rfl, rfl⟩
  · exact ⟨rfl, rfl⟩
  · rw [decodeCommand_reserved hreserved]
    exact ⟨decide_eq_true hreserved, rfl⟩

theorem decodeTick_answerable (en : Bool) (d : DState) : Answerable p r (decodeTick en d) := by
  cases en
  case false => exact ⟨rfl, rfl⟩
  case true => cases d <;> exact ⟨rfl, rfl⟩

theorem decode_answerable {port : Port} {bs : Bytes} {i : Instr} (h : decode p r port bs = .ok i) : Answerable p r i := by
  unfold decode at h
  split at h
  case h_1 =>
    split at h
    · cases h; exact ⟨rfl, rfl⟩
    split at h
    · cases h; exact ⟨rfl, rfl⟩
    split at h
    · cases h; exact ⟨rfl, rfl⟩
    split at h
    · cases h; exact ⟨rfl, rfl⟩
    · cases h
  case h_3 => cases h; exact decodeCommand_answerable p r _ _
  case h_5 =>
    split at h
    · cases h
    · cases h; exact decodeTick_answerable p r _ _
  case h_7 => cases h; exact decodeFrame_answerable p r _
  case h_8 => cases h; exact ⟨rfl, rfl⟩
  all_goals cases h

end Levels

/-- Settles O59: each level answers its own row where the next level refuses, and hands on fields within the next level's bounds. -/
theorem decoderAnswersAdmittedRows : Obligations.DecoderAnswersAdmittedRows :=
  ⟨fun p r _ _ _ h => decode_answerable p r h, fun _ _ _ => ⟨_, rfl⟩⟩

end Sys2Proof.Machine

/-! The checksum engine's laws (40_checksum.md R78, R79, R85). -/

namespace Sys2Proof.Machine

/-! ### One step of the sum (R78) -/

theorem addWord_lt {s w : Nat} (hs : s < 65536) (hw : w < 65536) : addWord s w < 65536 := by
  rw [addWord]
  omega

/-- The end-around carry makes 0 from zeros only. -/
theorem addWord_eq_zero_iff (s w : Nat) : addWord s w = 0 ↔ s = 0 ∧ w = 0 := by
  rw [addWord]
  omega

theorem byte_eq_zero_iff (b : Byte) : b = 0 ↔ b.toNat = 0 := BitVec.toNat_inj (y := 0) |>.symm

/-! ### The running sum -/

theorem csumSum_lt (bs : Bytes) {s : Nat} (hs : s < 65536) : csumSum bs s < 65536 := by
  induction bs, s using csumSum.induct with
  | case1 s => exact hs
  | case2 b s => exact addWord_lt hs (by have hb := b.isLt; omega)
  | case3 a b rest s ih => exact ih (addWord_lt hs (by have ha := a.isLt; have hb := b.isLt; omega))

theorem csumSum_eq_zero_iff (bs : Bytes) (s : Nat) : csumSum bs s = 0 ↔ s = 0 ∧ ∀ b ∈ bs, b = 0 := by
  induction bs, s using csumSum.induct with
  | case1 s => simp [csumSum]
  | case2 b s =>
    rw [csumSum, addWord_eq_zero_iff, List.forall_mem_singleton, byte_eq_zero_iff]
    omega
  | case3 a b rest s ih =>
    rw [csumSum, ih, addWord_eq_zero_iff, List.forall_mem_cons, List.forall_mem_cons, byte_eq_zero_iff a, byte_eq_zero_iff b]
    have hword : a.toNat * 256 + b.toNat = 0 ↔ a.toNat = 0 ∧ b.toNat = 0 := by omega
    rw [hword, and_assoc, and_assoc]

/-- An odd final byte counts as a word with a zero low byte. -/
theorem csumSum_append_zero (bs : Bytes) (s : Nat) (hodd : bs.length % 2 = 1) :
    csumSum (bs ++ [0x00]) s = csumSum bs s := by
  induction bs, s using csumSum.induct with
  | case1 s => exact absurd hodd (by simp)
  | case2 b s => simp [csumSum]
  | case3 a b rest s ih =>
    have hrest : rest.length % 2 = 1 := by
      simp only [List.length_cons] at hodd
      omega
    exact ih hrest

/-! ### The checksum -/

theorem csum_eq_ones_iff (bs : Bytes) : csum [bs] = 0xFFFF ↔ ∀ b ∈ bs, b = 0 := by
  have hlt : csumSum bs 0 < 65536 := csumSum_lt bs (by decide)
  have hones : ∀ v : Half, ~~~ v = 0xFFFF ↔ v = 0 := fun v => by
    rw [show (0xFFFF : Half) = ~~~ 0 from rfl, BitVec.not_inj]
  have hzero : BitVec.ofNat 16 (csumSum bs 0) = 0 ↔ csumSum bs 0 = 0 := by
    rw [← BitVec.toNat_inj, BitVec.toNat_ofNat, Nat.mod_eq_of_lt hlt]
    rfl
  rw [csum, List.flatten_singleton, hones, hzero, csumSum_eq_zero_iff]
  exact and_iff_right rfl

/-- Settles O41: the laws are those of the running sum over the segments' concatenation. -/
theorem checksumLaws : Obligations.ChecksumLaws := by
  refine ⟨fun bs => ⟨csumSum_lt bs (by decide), csum_eq_ones_iff bs⟩, fun segments => csum_congr (by simp),
    fun bs hodd => ?padded, by decide, by decide⟩
  case padded =>
    have hflatten : [bs, [0x00]].flatten = bs ++ [0x00] := by simp
    rw [csum, csum, hflatten, List.flatten_singleton, csumSum_append_zero bs 0 hodd]

/-- Settles O42: the unit that the check sums is the one the checksum was computed over. -/
theorem checksumInsertionVerifies : Obligations.ChecksumInsertionVerifies :=
  fun _ _ hfits hzero => verifies_insertChecksum hfits hzero

end Sys2Proof.Machine

/-! The reset state, the moves of the agents outside the engine, the status read map, and the rows whose effect is settled by their
handler alone (10_state.md R36 to R38; 43_ipv4_demux.md R105; 46_dhcp_rx.md R150 to R152; 47_dhcp_timer_tx.md R161, R162). -/

namespace Sys2Proof.Machine

/-! ### Reset -/

/-- Settles O2: the fields of the reset state are those that RESET writes, or empty. -/
theorem resetStateIsWhatResetLeaves : Obligations.ResetStateIsWhatResetLeaves := by
  refine ⟨?fixed, rfl, rfl, rfl, rfl, rfl, rfl, rfl, rfl, rfl⟩
  case fixed => rw [exec_reset]; rfl

/-- Settles O3: the move is RESET on the asserted level, and while it stays asserted the arbiter starts RESET. -/
theorem assertedResetAbortsTheOperation : Obligations.AssertedResetAbortsTheOperation := by
  refine ⟨fun s rest henv => ?asserts, fun s henv hreset => ?stays⟩
  case asserts => rw [step_of_script henv, environmentStep, exec_reset, State.resetBlock]
  case stays => rw [step_of_noScript henv, engineStep_of_idle (.inr hreset), startOperation_reset hreset]

/-! ### The agents' moves -/

/-- Settles O5: each move is its own update, and the pulse's count is the saturating increment. -/
theorem inputsArriveAsStated : Obligations.InputsArriveAsStated := by
  intro s rest
  refine ⟨fun henv hreset => ?pulse, fun henv hreset => ?pulseLost, fun op arg henv hreset hfree => ?command,
    fun op arg henv hbusy => ?commandIgnored, fun f henv hroom => ?frame, fun f henv hfull => ?frameLost,
    fun henv => ?deassert, fun c henv => ?pins, fun v henv => ?draw, fun a henv => ?answer⟩
  case pulse =>
    refine ⟨{ s with env := rest, tickPend := satInc s.tickPend }, ?_, rfl, toNat_satInc s.tickPend⟩
    rw [step_of_script henv, environmentStep, State.tickPulse, if_neg (by simp [hreset])]
  case pulseLost => rw [step_of_script henv, environmentStep, State.tickPulse, if_pos hreset]
  case command => rw [step_of_script henv, environmentStep, State.commandWrite, if_neg (by simp [hreset, hfree])]
  case commandIgnored => rw [step_of_script henv, environmentStep, State.commandWrite, if_pos (by simp [hbusy])]
  case frame => rw [step_of_script henv, environmentStep, State.frameArrives, if_pos hroom]
  case frameLost => rw [step_of_script henv, environmentStep, State.frameArrives, if_neg (Nat.not_lt.mpr hfull)]
  case deassert => rw [step_of_script henv, environmentStep]
  case pins => rw [step_of_script henv, environmentStep]
  case draw => rw [step_of_script henv, environmentStep]
  case answer => rw [step_of_script henv, environmentStep]

/-! ### The status read map (R38) -/

/-- A flag in bit 8 above a field of at most 8 bits. -/
theorem toNat_or_flag {n : Nat} (hn : n ≤ 8) (v : BitVec n) (b : Bool) :
    (v.setWidth 32 ||| (if b then 0x100 else 0) : BitVec 32).toNat = v.toNat + 256 * b.toNat := by
  have hv : v.toNat < 2 ^ 8 := v.isLt.trans_le (Nat.pow_le_pow_right (by decide) hn)
  have hwide : (v.setWidth 32).toNat = v.toNat := by
    rw [BitVec.toNat_setWidth, Nat.mod_eq_of_lt (by omega)]
  rw [BitVec.toNat_or, hwide]
  cases b
  case false => exact Nat.or_zero _
  case true =>
    have hflag : 2 ^ 8 * 1 + v.toNat = 2 ^ 8 * 1 ||| v.toNat := Nat.two_pow_add_eq_or_of_lt hv 1
    rw [Nat.or_comm, Nat.add_comm]
    exact hflag.symm

/-- An image of a register of at most 32 bits is the register. -/
theorem toNat_setWidth_image {n : Nat} (hn : n ≤ 32) (v : BitVec n) : (v.setWidth 32).toNat = v.toNat := by
  rw [BitVec.toNat_setWidth, Nat.mod_eq_of_lt (v.isLt.trans_le (Nat.pow_le_pow_right (by decide) hn))]

/-- The two images of a MAC address: bits 47:32 and bits 31:0. -/
theorem toNat_macHigh (m : Mac) : ((m.extractLsb' 32 16).setWidth 32).toNat = m.toNat / 2 ^ 32 := by
  have hm := m.isLt
  rw [toNat_setWidth_image (by decide), BitVec.extractLsb'_toNat, Nat.shiftRight_eq_div_pow]
  omega

theorem toNat_macLow (m : Mac) : (m.extractLsb' 0 32).toNat = m.toNat % 2 ^ 32 := by
  rw [BitVec.extractLsb'_toNat, Nat.shiftRight_zero]

theorem toNat_append_half {n : Nat} (hi : BitVec n) (lo : Half) : (hi ++ lo).toNat = lo.toNat + 65536 * hi.toNat := by
  rw [BitVec.toNat_append, ← Nat.shiftLeft_add_eq_or_of_lt lo.isLt, Nat.shiftLeft_eq]
  omega

/-- The addresses 0x1B to 0xFF are reserved. -/
theorem State.image_reserved (s : State) {a : BitVec 8} (h : 0x1B ≤ a.toNat) : s.image a = 0 := by
  unfold State.image
  split
  case h_28 => rfl
  all_goals omega

theorem exec_read (a : BitVec 8) (s : State) :
    exec (.read a) s = .next { s with hostReads := s.hostReads ++ [(a, s.image a)] } := rfl

/-- Settles O4: a read appends to the transcript only, and each address gives its register's image. -/
theorem statusReadGivesTheMapWithoutSideEffect : Obligations.StatusReadGivesTheMapWithoutSideEffect := by
  intro s
  refine ⟨fun a => exec_read a s, fun a rest henv => ⟨step_of_script henv, step_of_script henv⟩, toNat_or_flag (by decide) ..,
    rfl, rfl, toNat_macHigh _, toNat_macLow _, rfl, rfl, rfl, rfl, rfl, rfl, rfl, ?retryTmo, rfl, toNat_macHigh _,
    toNat_macLow _, toNat_setWidth_image (by decide) _, toNat_setWidth_image (by decide) _,
    toNat_setWidth_image (by decide) _, toNat_setWidth_image (by decide) _, toNat_setWidth_image (by decide) _,
    toNat_append_half .., rfl, rfl, toNat_setWidth_image (by decide) _, toNat_setWidth_image (by decide) _,
    toNat_or_flag (by decide) .., fun a ha => s.image_reserved ha⟩
  case retryTmo => exact (toNat_setWidth_image (by decide) _).trans (toNat_append_half _ _)

/-! ### The draw of a tick (R161, R162) -/

theorem State.drawValue_of_scripted {s : State} {v : Word} {rest : List Word} (h : s.draws = v :: rest) : s.drawValue = v := by
  simp only [State.drawValue, h]

theorem State.drawn_of_scripted {s : State} {v : Word} {rest : List Word} (h : s.draws = v :: rest) :
    s.drawn = { s with draws := rest } := by
  simp only [State.drawn, h]

theorem State.drawn_of_unscripted {s : State} (h : s.draws = []) : s.drawn = { s with drawIndex := s.drawIndex + 1 } := by
  simp only [State.drawn, h]

/-- Settles O14: both ticks are emitting rows on the state after the draw. -/
theorem tickInitDrawsAnXidAndStarts : Obligations.TickInitDrawsAnXidAndStarts := by
  intro s i d form hrow hpend hmac
  refine ⟨s.drawValue, s.drawn, fun v rest h => ⟨State.drawValue_of_scripted h, State.drawn_of_scripted h⟩,
    State.drawn_of_unscripted, ?_⟩
  have hpend' : s.drawn.tickPend ≠ 0 := by rwa [State.drawn_tickPend]
  have hmac' : s.drawn.macAccepts := by rwa [State.macAccepts, State.drawn_txAnswers]
  obtain ⟨rfl, rfl, rfl⟩ | ⟨rfl, rfl, rfl⟩ := hrow
  · exact (State.Emits.tickInit _ _ _ s.drawGives_drawValue rfl).exec_tick_sent hpend' hmac'
  · exact (State.Emits.tickInitReboot _ _ _ s.drawGives_drawValue rfl).exec_tick_sent hpend' hmac'

/-! ### The destination filter (R105) -/

theorem acceptsDst_iff (r : Regs) (dst : Ip) :
    acceptsDst r dst = true ↔
      (r.myIp ≠ 0 ∧ dst = r.myIp) ∨ dst = 0xFFFFFFFF ∨ (r.myIp ≠ 0 ∧ dst = (r.myIp ||| ~~~ r.netmask)) := by
  simp only [acceptsDst, Bool.or_eq_true, Bool.and_eq_true, bne_iff_ne, beq_iff_eq, or_assoc, Config.broadcastIp]

/-- Settles O27: with no address both clauses of the own address are void, and a subnet broadcast has a bit of that address. -/
theorem destinationFilter : Obligations.DestinationFilter := by
  intro r dst
  refine ⟨acceptsDst_iff r dst, fun hnone => ?noAddress, ?never⟩
  case noAddress => simp [acceptsDst_iff, hnone]
  case never =>
    rw [← Bool.not_eq_true, acceptsDst_iff]
    rintro (⟨haddr, hown⟩ | hbroadcast | ⟨haddr, hsubnet⟩)
    · exact haddr hown.symm
    · exact absurd hbroadcast (by decide)
    · exact haddr (BitVec.or_eq_zero_iff.mp hsubnet.symm).1

/-! ### The two ACK rows (R150 to R152) -/

/-- The times that `record_lease` gives: the options' where present, else R152's defaults (log 11). -/
structure RecordsTimes (lease : Word) (o : DhcpOpts) (t1 t2 : Word) : Prop where
  t1_given : ∀ v, o.t1 = some v → t1 = v
  t1_default : o.t1 = none → t1.toNat = lease.toNat / 2
  t2_given : ∀ v, o.t2 = some v → t2 = v
  t2_default : o.t2 = none → t2.toNat = 7 * lease.toNat / 8

/-- The 35-bit product of R152, divided by 8, fits the 32-bit register. -/
theorem recordsTimes_getD (lease : Word) (o : DhcpOpts) :
    RecordsTimes lease o (o.t1.getD (lease >>> 1)) (o.t2.getD (BitVec.ofNat 32 (7 * lease.toNat / 8))) where
  t1_given v h := by rw [h, Option.getD_some]
  t1_default h := by rw [h, Option.getD_none, BitVec.toNat_ushiftRight, Nat.shiftRight_eq_div_pow, Nat.pow_one]
  t2_given v h := by rw [h, Option.getD_some]
  t2_default h := by
    have hlease := lease.isLt
    rw [h, Option.getD_none, BitVec.toNat_ofNat, Nat.mod_eq_of_lt (by omega)]

/-- Settles O36, by R150's three cases. -/
theorem dhcpAckBindsTheLease : Obligations.DhcpAckBindsTheLease := by
  intro y o s
  rw [exec_dhcpAckBind]
  refine ⟨fun hnone => ?noLease, fun lease hlease => ⟨fun hzero => ?badAddr, fun haddr => ?bound⟩⟩
  case noLease => rw [dhcpAckBindEnd_noLease hnone, State.complete_rx_drop s (by decide)]; rfl
  case badAddr => rw [dhcpAckBindEnd_of_lease hlease, if_pos hzero, State.complete_rx_drop s (by decide)]; rfl
  case bound =>
    obtain ⟨h1, hd1, h2, hd2⟩ := recordsTimes_getD lease o
    refine ⟨_, _, h1, hd1, h2, hd2, ?_⟩
    rw [dhcpAckBindEnd_of_lease hlease, if_neg haddr, State.complete_rx_quiet]
    rfl

/-- Settles O37, by R151's three cases. -/
theorem dhcpAckExtendsTheLease : Obligations.DhcpAckExtendsTheLease := by
  intro y o s
  rw [exec_dhcpAckExtend]
  refine ⟨fun hnone => ?noLease, fun lease hlease => ⟨fun hother => ?mismatch, fun hsame => ?extended⟩⟩
  case noLease => rw [dhcpAckExtendEnd_noLease hnone, State.complete_rx_drop s (by decide)]; rfl
  case mismatch => rw [dhcpAckExtendEnd_of_lease hlease, if_pos hother, State.complete_rx_drop s (by decide)]; rfl
  case extended =>
    obtain ⟨h1, hd1, h2, hd2⟩ := recordsTimes_getD lease o
    refine ⟨_, _, h1, hd1, h2, hd2, ?_⟩
    rw [dhcpAckExtendEnd_of_lease hlease, if_neg (not_not.mpr hsame), State.complete_rx_quiet]
    rfl

/-! ### Words written out -/

/-- Settles O55: the decoder runs on fixed words. -/
theorem writtenOutWordsDecode : Obligations.WrittenOutWordsDecode := by
  refine ⟨?resolve, ?reserved, ?arp, ?echo, ?tcp⟩
  all_goals decide +kernel

end Sys2Proof.Machine
